-- ==== Sys2Proof/Word.lean ====
section
/-! DEFINITION. The word types of the block: bytes, 32-bit register words, 64-bit addresses and sizes. -/

namespace Sys2Proof

/-- One byte of memory, of a key, of a nonce or of a keystream block. -/
abbrev Byte := BitVec 8

/-- One register word (REG_WIDTH, R8) and one word of the block function (R9, R21). -/
abbrev Word := BitVec 32

/-- An address on the memory port (MADDR_WIDTH, R8) and a buffer size (SIZE_WIDTH, R8). -/
abbrev DWord := BitVec 64

end Sys2Proof
end

