-- ==== Sys2Proof/Config.lean ====
section
/-! DEFINITION. What the hardware fixes: the constants of R6, the open parameters of R7 and R8, and the free values. -/

namespace Sys2Proof.Config

/-- SIGMA (R6, R37): state words 0 to 3 of every block. -/
def sigma : Vector Word 4 := #v[0x61707865, 0x3320646e, 0x79622d32, 0x6b206574]

/-- DOUBLE_ROUNDS (R6, R124). -/
def doubleRounds : Nat := 10

/-- BLOCK_BYTES (R6). -/
abbrev blockBytes : Nat := 64

/-- MAGIC (R6, R156): the marker, read little-endian from bytes 0 to 3. -/
def magic : Word := 0xFAB11BAF

/-- HDR_OFFSET (R6): the first masked byte. -/
def hdrOffset : Nat := 8

/-- WINDOW_CAP (R6, R161): the largest window. -/
def windowCap : Nat := 0x200

/-- REG_SPAN (R8): bytes in the register block. -/
def regSpan : Nat := 0x100

/-- One past the last address of the memory space (R8, R41). -/
def memSpan : Nat := 2 ^ 64

/-- FIXED_KEY (R7, R36): an OPEN parameter, hardwired (log 19). -/
opaque fixedKey : Vector Byte 32

/-- FIXED_NONCE (R7, R36): an OPEN parameter, hardwired (log 19). -/
opaque fixedNonce : Vector Byte 12

/-- REG_BASE (R8, R215): an OPEN parameter, the platform address of the register block (log 19). -/
opaque regBase : Nat

/-- A free byte, fresh for each number: raced bytes (R74) and the byte of a failed write (R167); log 9, log 10. -/
opaque freeByte : Nat → Byte

/-- A free choice, fresh for each number: whether a write in flight at reset completes (R242); log 11. -/
opaque freeBool : Nat → Bool

end Sys2Proof.Config
end

