-- ==== Sys2Proof/Syntax.lean ====
section
/-! DEFINITION. The commands of the block: one constructor per row of spec/opcode_table.json (R91, R102). -/

namespace Sys2Proof

/-- The three commands. None has an operand in its word: the operands are registers (R90). -/
inductive Instr where
  /-- GEN_BLOCK (R127): one keystream block from the key, nonce and counter registers. -/
  | genBlock
  /-- GEN_BLOCK_FIXED (R128): one keystream block from FIXED_KEY, FIXED_NONCE and the counter register. -/
  | genBlockFixed
  /-- MASK_HEADER (R150): the header transform on the buffer the BUF registers describe. -/
  | maskHeader
  deriving DecidableEq, Repr, Inhabited

end Sys2Proof
end

