-- ==== Sys2Proof/WellFormed.lean ====
section
/-! DEFINITION. Well-formed terms: commands (R90, no operand to check) and register-port accesses (R97). -/

namespace Sys2Proof

/-- Every command is well formed: its word has no operand field (R90), and "Every value is legal" of each operand
register (R26, R30 to R33). -/
def Instr.wellFormed : Instr → Bool
  | .genBlock => true
  | .genBlockFixed => true
  | .maskHeader => true

/-- An access on the register port: its byte offset from REG_BASE and its width in bytes. -/
structure PortAccess where
  offset : Nat
  width : Nat
  deriving DecidableEq, Repr

namespace PortAccess

/-- R97: "a narrower or wider access" has no meaning; the port takes 32-bit accesses. -/
def widthOk (a : PortAccess) : Bool := a.width == 4

/-- R97: "an access outside the register block" has no meaning. -/
def inBlock (a : PortAccess) : Bool := a.offset < Config.regSpan

/-- R97: "an access at a misaligned offset" has no meaning. -/
def aligned (a : PortAccess) : Bool := a.offset % 4 == 0

/-- R97: the accesses the register port accepts. -/
def wellFormed (a : PortAccess) : Bool := a.widthOk && a.inBlock && a.aligned

end PortAccess

end Sys2Proof
end

