-- ==== Sys2Proof/Decode.lean ====
section
/-! DEFINITION. The command word (R90 to R93): the decoder, total on every 32-bit word, and the encoder. -/

namespace Sys2Proof

/-- Why a command word is a bad command (R92). -/
inductive BadWord where
  /-- RSVD, bits [31:4], is not 0. -/
  | reservedBits
  /-- RSVD is 0 and OP is 0x0 or in 0x4 to 0xF. -/
  | reservedOp
  deriving DecidableEq, Repr, Inhabited

/-- What a word written to CMD asks for: the Command of R93. -/
inductive Command where
  | instr (i : Instr)
  | bad (why : BadWord)
  deriving DecidableEq, Repr, Inhabited

/-- OP, bits [3:0] (R90). -/
def opField (w : Word) : BitVec 4 := w.extractLsb' 0 4

/-- RSVD, bits [31:4] (R90). -/
def rsvdField (w : Word) : BitVec 28 := w.extractLsb' 4 28

/-- The decode function of R93. -/
def decode (w : Word) : Command :=
  if rsvdField w ≠ 0 then .bad .reservedBits
  else if opField w = 0x1 then .instr .genBlock
  else if opField w = 0x2 then .instr .genBlockFixed
  else if opField w = 0x3 then .instr .maskHeader
  else .bad .reservedOp

/-- The OP code of a command (R91). -/
def Instr.opcode : Instr → BitVec 4
  | .genBlock => 0x1
  | .genBlockFixed => 0x2
  | .maskHeader => 0x3

/-- The command word of a command: RSVD = 0 above OP (R90, R91). -/
def encode (i : Instr) : Word := (0 : BitVec 28) ++ i.opcode

/-- The command read from the low `nbits` bits of `w`, every higher bit 0: one 32-bit word, as CMD receives it. -/
def decodeTableWord (nbits w : Nat) : Option Instr :=
  match decode (BitVec.ofNat 32 (w % 2 ^ nbits)) with
  | .instr i => some i
  | .bad _ => none

end Sys2Proof
end

