-- ==== Sys2Proof/Machine/State.lean ====
section
/-! DEFINITION. The state of the machine (R20 to R41), the reasons a step can stop, and the state after reset (R240). -/

namespace Sys2Proof.Machine

/-- The outcome codes the block produces (R201); codes 9 to 15 are never produced (U7, log 15). -/
inductive OutcomeCode where
  | none
  | ok
  | skipEmpty
  | skipTooSmallHeader
  | skipFormatMismatch
  | skipTooSmallNoWindow
  | errAddrRange
  | errBus
  | errBadCmd
  deriving DecidableEq, Repr, Inhabited

/-- STATUS (R25). Its reserved bits hold no state. -/
structure Status where
  busy : Bool
  done : Bool
  diag : Bool
  cmdDropped : Bool
  outcome : OutcomeCode
  deriving DecidableEq, Repr

/-- The sequencer's phases (R39). -/
inductive Phase where
  | idle
  | gRun
  | mCheck
  | mMark
  | mKgen
  | mRd
  | mWr
  | finish
  deriving DecidableEq, Repr

/-- The result values a command writes at completion (R39, R205). -/
structure Res where
  outcome : OutcomeCode
  winLen : Word
  bytesDone : Word
  blocks : Word
  ks : Vector Word 16
  deriving DecidableEq, Repr, Inhabited

/-- The hidden engine state of R39, but for `phase`: the latches L.op to L.size, the marker bytes and their count, the
block counter, the window, the offset, the keystream block, the byte read, the result. -/
structure Engine where
  op : Command
  key : Vector Byte 32
  nonce : Vector Byte 12
  counter : Word
  base : DWord
  size : DWord
  mark : Vector Byte 4
  markCount : BitVec 3
  ctr : Word
  win : Word
  off : Word
  kbuf : Vector Byte 64
  rbyte : Byte
  res : Res
  deriving DecidableEq, Repr, Inhabited

/-- The generator's working state `x` and initial state `s0` (R21). -/
structure Work where
  x : Vector Word 16
  s0 : Vector Word 16
  deriving DecidableEq, Repr, Inhabited

/-- The memory's answer to one transaction: OK or BUSERR (R68), or no answer at all (R251). -/
inductive Response where
  | ok
  | busErr
  | never
  deriving DecidableEq, Repr

/-- A platform address range whose reads or writes have side effects (R67). -/
structure Region where
  base : Nat
  size : Nat
  deriving DecidableEq, Repr

/-- What the host (or the reset input) does in one turn (R20, R101, R240). -/
inductive HostOp where
  /-- `wr NAME, imm32`: a register-port write. -/
  | wr (a : PortAccess) (v : Word)
  /-- `rd NAME -> tN`: a register-port read into a host temporary. -/
  | rd (a : PortAccess) (t : Nat)
  /-- `wait_done`: poll STATUS into t0 until BUSY = 0. -/
  | waitDone
  /-- The host writes a byte of memory by its own path. -/
  | memWr (a : DWord) (v : Byte)
  /-- The host reads a byte of memory by its own path into a host temporary. -/
  | memRd (a : DWord) (t : Nat)
  /-- The reset input is asserted. -/
  | reset
  /-- The host leaves the block alone. -/
  | pause
  deriving DecidableEq, Repr

/-- How many engine steps come before the host's next turn (R209, R252; log 1). -/
inductive Slack where
  | steps (n : Nat)
  | untilIdle
  deriving DecidableEq, Repr

/-- A turn of the host: what it does, and how long it then leaves the engine alone. -/
structure HostTurn where
  op : HostOp
  slack : Slack
  deriving DecidableEq, Repr

/-- The whole machine: the registers of R23, the engine (R39), the working state (R21), memory (R41), and the environment
that memory and the host are. -/
structure State where
  status : Status
  counter : Word
  winLen : Word
  bytesDone : Word
  blocks : Word
  key : Vector Word 8
  nonce : Vector Word 3
  bufBaseLo : Word
  bufBaseHi : Word
  bufSizeLo : Word
  bufSizeHi : Word
  ks : Vector Word 16
  phase : Phase
  eng : Engine
  work : Work
  /-- The memory space: strictly rising addresses, no byte equal to what an unlisted one reads as (log 4). -/
  mem : List Host.Cell
  /-- The platform's ranges with side effects (log 5). -/
  devices : List Region
  /-- The memory's coming answers, one a transaction; past the end every answer is OK (log 3). -/
  responses : List Response
  /-- The host's coming turns (log 2). -/
  host : List HostTurn
  /-- The slack of the turn being taken (log 1). -/
  slack : Slack
  /-- The host temporaries tN (R101; log 16). -/
  temps : List (Nat × Word)
  /-- The bytes in a race with the running command (R74; log 9). -/
  raced : List Nat
  /-- The model's own counter: the number of the next free value (log 30). -/
  freeCtr : Nat
  deriving DecidableEq, Repr

/-- What stops the machine. The block itself never stops (R200). -/
inductive Fault where
  /-- Raised by an engine transaction at an address at or above 2^64, which does not exist (R41). R158 keeps every state that
  a run reaches away from it. Safe (log 21). -/
  | addressOutsideMemory (a : Nat)
  deriving DecidableEq, Repr

/-- What the machine gives no meaning to. -/
inductive Refusal where
  /-- Raised by exec's arm of an instruction without a meaning; no arm of this model does. Safe. -/
  | notModelled (mnemonic : String)
  /-- Raised by a register-port access that is not 32 bits wide (R97, U10). Safe (log 18). -/
  | portWidth (width : Nat)
  /-- Raised by a register-port access outside the register block (R97, U10). Safe (log 18). -/
  | portOutside (offset : Nat)
  /-- Raised by a register-port access at a misaligned offset (R97, U10). Safe (log 18). -/
  | portMisaligned (offset : Nat)
  /-- Raised by an engine transaction on memory with side effects (R67, U11). Safe (log 5). -/
  | deviceMemory (a : Nat)
  /-- Raised by a host access by its own path to memory with side effects, whose device the spec does not describe. Safe
  (log 5). -/
  | hostDeviceAccess (a : Nat)
  deriving DecidableEq, Repr

/-- STATUS after reset (R25, R240). -/
def Status.reset : Status :=
  { busy := false, done := false, diag := false, cmdDropped := false, outcome := .none }

/-- The hidden engine state right after reset, which R39 leaves unspecified: DESIGN CHOICE, zeros (log 6). -/
def Engine.reset : Engine :=
  { op := .bad .reservedOp, key := Vector.replicate 32 0, nonce := Vector.replicate 12 0, counter := 0, base := 0, size := 0,
    mark := Vector.replicate 4 0, markCount := 0, ctr := 0, win := 0, off := 0, kbuf := Vector.replicate 64 0, rbyte := 0,
    res := { outcome := .none, winLen := 0, bytesDone := 0, blocks := 0, ks := Vector.replicate 16 0 } }

/-- The working state right after reset, which R21 leaves unspecified: DESIGN CHOICE, zeros (log 8). -/
def Work.reset : Work := { x := Vector.replicate 16 0, s0 := Vector.replicate 16 0 }

/-- The machine right after reset (R240), with nothing placed in memory and no host turn to come. -/
def State.reset : State :=
  { status := Status.reset, counter := 0, winLen := 0, bytesDone := 0, blocks := 0, key := Vector.replicate 8 0,
    nonce := Vector.replicate 3 0, bufBaseLo := 0, bufBaseHi := 0, bufSizeLo := 0, bufSizeHi := 0, ks := Vector.replicate 16 0,
    phase := .idle, eng := Engine.reset, work := Work.reset, mem := [], devices := [], responses := [], host := [],
    slack := .untilIdle, temps := [], raced := [], freeCtr := 0 }

end Sys2Proof.Machine

namespace Sys2Proof.Config

/-- Free hidden engine state, fresh for each number: what R39 calls dead while the engine is IDLE (U2, log 7). -/
opaque freeEngine : Nat → Machine.Engine

/-- A free working state, fresh for each number: x and s0 outside a block computation (R21, U1, log 8). -/
opaque freeWork : Nat → Machine.Work

end Sys2Proof.Config
end

