-- ==== Sys2Proof/Machine/Flags.lean ====
section
/-! DEFINITION. The only flags of the block, the STATUS bits (R25, R38), and the outcome codes they report (R201). -/

namespace Sys2Proof.Machine

/-- The code of an outcome in STATUS.OUTCOME (R201). -/
def OutcomeCode.code : OutcomeCode → BitVec 4
  | .none => 0
  | .ok => 1
  | .skipEmpty => 2
  | .skipTooSmallHeader => 3
  | .skipFormatMismatch => 4
  | .skipTooSmallNoWindow => 5
  | .errAddrRange => 6
  | .errBus => 7
  | .errBadCmd => 8

/-- "STATUS.DIAG is 1 exactly when the outcome is 3, 4 or 5" (R203). -/
def OutcomeCode.diag : OutcomeCode → Bool
  | .skipTooSmallHeader => true
  | .skipFormatMismatch => true
  | .skipTooSmallNoWindow => true
  | .none | .ok | .skipEmpty | .errAddrRange | .errBus | .errBadCmd => false

/-- STATUS as the host reads it (R25): OUTCOME in [7:4], CMD_DROPPED, DIAG, DONE, BUSY in bits 3 to 0, zeros above. -/
def Status.toWord (t : Status) : Word :=
  (0 : BitVec 24) ++ t.outcome.code ++ BitVec.ofBool t.cmdDropped ++ BitVec.ofBool t.diag ++ BitVec.ofBool t.done
    ++ BitVec.ofBool t.busy

/-- STATUS at acceptance (R94): "Acceptance does not change STATUS.CMD_DROPPED". -/
def Status.accepted (t : Status) : Status := { t with busy := true, done := false, diag := false, outcome := .none }

/-- STATUS at completion (R206): "CMD_DROPPED is unchanged". -/
def Status.completed (t : Status) (c : OutcomeCode) : Status :=
  { t with busy := false, done := true, diag := c.diag, outcome := c }

/-- STATUS when a CMD write is dropped (R95). -/
def Status.withDrop (t : Status) : Status := { t with cmdDropped := true }

/-- A host write of `v` to STATUS (R25): "writing 1 to bit 3 clears it. All the other bits ignore writes". -/
def Status.hostWrite (t : Status) (v : Word) : Status := { t with cmdDropped := t.cmdDropped && !v.getLsbD 3 }

end Sys2Proof.Machine
end

