-- ==== Sys2Proof/Machine/Operands.lean ====
section
/-! DEFINITION. Word operations (R10), byte order (R11, R60) and the operands of a command (R96). -/

namespace Sys2Proof.Machine

/-- rotl32 (R10); only the amounts 7, 8, 12 and 16 occur. -/
def rotl32 (v : Word) (n : Nat) : Word := (v <<< n) ||| (v >>> (32 - n))

/-- Byte `k` of a word: bits [8k+7 : 8k]. -/
def byteOf (v : Word) (k : Nat) : Byte := v.extractLsb' (8 * k) 8

/-- le32 (R11). -/
def le32 (b0 b1 b2 b3 : Byte) : Word :=
  b0.setWidth 32 ||| (b1.setWidth 32 <<< 8) ||| (b2.setWidth 32 <<< 16) ||| (b3.setWidth 32 <<< 24)

/-- le32_load (R11): the word at bytes `i` to `i + 3` of a byte array. -/
def le32Load {n : Nat} (b : Vector Byte n) (i : Nat) (h : i + 3 < n) : Word := le32 b[i] b[i + 1] b[i + 2] b[i + 3]

/-- le32_store of each word in order (R11, R126): byte `j` is byte `j mod 4` of word `j div 4`. -/
@[irreducible] def le32StoreAll {n : Nat} (w : Vector Word n) : Vector Byte (4 * n) :=
  Vector.ofFn fun j => byteOf (w[j.val / 4]'(by omega)) (j.val % 4)

/-- key_from_regs (R96). -/
def State.keyFromRegs (s : State) : Vector Byte 32 := le32StoreAll s.key

/-- nonce_from_regs (R96). -/
def State.nonceFromRegs (s : State) : Vector Byte 12 := le32StoreAll s.nonce

/-- base (R32, R96): BUF_BASE_HI ++ BUF_BASE_LO. -/
def State.bufBase (s : State) : DWord := s.bufBaseHi ++ s.bufBaseLo

/-- size (R33, R96): BUF_SIZE_HI ++ BUF_SIZE_LO. -/
def State.bufSize (s : State) : DWord := s.bufSizeHi ++ s.bufSizeLo

/-- window_length (R161) as a number, for a size above 8. -/
def windowLength (size : Nat) : Nat := min Config.windowCap (size - Config.hdrOffset)

end Sys2Proof.Machine
end

