-- ==== Sys2Proof/Machine/Ops.lean ====
section
/-! DEFINITION. The named operations over memory, the memory port, and the life of a command: acceptance (R94), a dropped
command (R95), `raise` (R205), completion (R206), reset (R240, R242). The block takes no exception and returns from none
(R204, R211, R212): `raise` and `finish` are what stands in their place. -/

namespace Sys2Proof.Machine

/-- The outcome of a step of this machine. -/
abbrev Result := Host.Outcome State Fault Refusal

/-- Go on from a next state; a fault or a refusal stays. -/
def andThen (o : Result) (f : State → Result) : Result :=
  match o with
  | .next s => f s
  | .fault r => .fault r
  | .refused r => .refused r

/-! Sparse data: a list of address and value pairs, `d` where nothing is listed. -/

/-- The value at an address. -/
def cellsRead {β : Type} (d : β) : List (Nat × β) → Nat → β
  | [], _ => d
  | (k, w) :: m, a => if k = a then w else cellsRead d m a

/-- Put a pair in its place by address. -/
def cellsInsert {β : Type} : List (Nat × β) → Nat → β → List (Nat × β)
  | [], a, v => [(a, v)]
  | (k, w) :: m, a, v => if a < k then (a, v) :: (k, w) :: m else (k, w) :: cellsInsert m a v

/-- Take an address out of the list. -/
def cellsErase {β : Type} (m : List (Nat × β)) (a : Nat) : List (Nat × β) := m.filter fun c => c.1 != a

/-- Write a value: the address is listed only if the value is not `d`. -/
def cellsWrite {β : Type} [DecidableEq β] (d : β) (m : List (Nat × β)) (a : Nat) (v : β) : List (Nat × β) :=
  if v = d then cellsErase m a else cellsInsert (cellsErase m a) a v

/-- The canonical form: addresses strictly rising, below `n`, and no listed `d`. -/
def cellsWf {β : Type} [DecidableEq β] (d : β) : List (Nat × β) → Bool
  | [] => true
  | [(_, v)] => v ≠ d
  | (k, v) :: (k', v') :: m => decide (v ≠ d) && decide (k < k') && cellsWf d ((k', v') :: m)

/-! Memory (R41). -/

/-- What a byte of memory that is not listed reads as (DESIGN CHOICE, log 4). -/
def Memory.unlisted : Byte := 0

/-- The byte at an address. -/
def Memory.read (m : List Host.Cell) (a : Nat) : Byte := cellsRead Memory.unlisted m a

/-- Memory with one byte written. -/
def Memory.write (m : List Host.Cell) (a : Nat) (v : Byte) : List Host.Cell := cellsWrite Memory.unlisted m a v

/-- The canonical form of memory, inside the memory space (R41). -/
def Memory.wf (m : List Host.Cell) : Bool := cellsWf Memory.unlisted m && m.all fun c => decide (c.1 < Config.memSpan)

/-- A byte of the machine's memory. -/
def State.readByte (s : State) (a : Nat) : Byte := Memory.read s.mem a

/-- Does the region hold the address? -/
def Region.holds (r : Region) (a : Nat) : Bool := decide (r.base ≤ a) && decide (a < r.base + r.size)

/-- Is the address in memory with side effects (R67)? -/
def State.isDevice (s : State) (a : Nat) : Bool := s.devices.any fun r => r.holds a

/-! The memory master port (R62, R68). -/

/-- One transaction at address `a`: the memory's answer picks `onOk` or `onErr`. A memory that never answers leaves the
engine where it is (R251, log 13). -/
def transact (s : State) (a : Nat) (onOk onErr : State → Result) : Result :=
  if Config.memSpan ≤ a then .fault (.addressOutsideMemory a)
  else if s.isDevice a then .refused (.deviceMemory a)
  else match s.responses with
    | [] => onOk s
    | .ok :: rs => onOk { s with responses := rs }
    | .busErr :: rs => onErr { s with responses := rs }
    | .never :: _ => .next s

/-- What the engine reads at `a`: a free value if the byte is in a race (R74, log 9). -/
def State.portByte (s : State) (a : Nat) : Byte := if a ∈ s.raced then Config.freeByte s.freeCtr else s.readByte a

/-- The state after the engine has read at `a`. -/
def State.afterPortRead (s : State) (a : Nat) : State := if a ∈ s.raced then { s with freeCtr := s.freeCtr + 1 } else s

/-- `MemRead(a, 1)` (R12). -/
def memRead (s : State) (a : Nat) (onOk : Byte → State → Result) (onErr : State → Result) : Result :=
  transact s a (fun t => onOk (t.portByte a) (t.afterPortRead a)) onErr

/-- The state after a write that returned OK. -/
def State.stored (s : State) (a : Nat) (v : Byte) : State := { s with mem := Memory.write s.mem a v }

/-- The state after a write that returned BUSERR: the byte holds any value (R167, U5, log 10), and keeps it if a reset comes
before FINISH, where R242 would have it old or masked: DESIGN CHOICE, log 32. -/
def State.storeFailed (s : State) (a : Nat) : State :=
  { s with mem := Memory.write s.mem a (Config.freeByte s.freeCtr), freeCtr := s.freeCtr + 1 }

/-- `MemWrite(a, 1, v)` (R12). -/
def memWrite (s : State) (a : Nat) (v : Byte) (onOk onErr : State → Result) : Result :=
  transact s a (fun t => onOk (t.stored a v)) (fun t => onErr (t.storeFailed a))

/-! The life of a command. -/

/-- Acceptance (R94) of a command: STATUS, the latches `e`, the first phase. No byte is yet in a race with it. -/
def State.accept (s : State) (e : Engine) (p : Phase) : State :=
  { s with status := s.status.accepted, eng := e, phase := p, raced := [] }

/-- A CMD write while BUSY = 1 (R95). -/
def State.dropCommand (s : State) : State := { s with status := s.status.withDrop }

/-- `raise` (R205): the result of the command, and the phase FINISH. -/
def State.raise (s : State) (c : OutcomeCode) (winLen bytesDone blocks : Word) : State :=
  { s with
    eng := { s.eng with res := { s.eng.res with outcome := c, winLen := winLen, bytesDone := bytesDone, blocks := blocks } },
    phase := .finish }

/-- The memory once every raced byte has its final, free value (R74, log 9), drawn from number `n` on. -/
def settleRaces : List Nat → Nat → List Host.Cell → List Host.Cell
  | [], _, m => m
  | a :: as, n, m => settleRaces as (n + 1) (Memory.write m a (Config.freeByte n))

/-- Does completion write KS0 to KS15 (R206)? -/
def writesKs (op : Command) (c : OutcomeCode) : Bool :=
  (op == .instr .genBlock || op == .instr .genBlockFixed) && c == .ok

/-- Completion, the FINISH step (R206): one indivisible update. The hidden state is dead from here (R39, U2, log 7). -/
def State.finish (s : State) : State :=
  { s with
    winLen := s.eng.res.winLen, bytesDone := s.eng.res.bytesDone, blocks := s.eng.res.blocks,
    ks := if writesKs s.eng.op s.eng.res.outcome then s.eng.res.ks else s.ks,
    status := s.status.completed s.eng.res.outcome,
    phase := .idle,
    mem := settleRaces s.raced s.freeCtr s.mem,
    raced := [],
    eng := Config.freeEngine (s.freeCtr + s.raced.length),
    freeCtr := s.freeCtr + s.raced.length + 1 }

/-! Reset (R240, R242). -/

/-- The address of the window byte the engine works on (R168). -/
def Engine.windowAddr (e : Engine) : Nat := e.base.toNat + Config.hdrOffset + e.off.toNat

/-- The masked value of the window byte the engine has read (R168). -/
def Engine.maskedByte (e : Engine) : Byte := e.rbyte ^^^ e.kbuf[e.off.toNat % Config.blockBytes]'(Nat.mod_lt _ (by decide))

/-- Memory at a reset: a write in flight "may complete or not" (R242, U6, U17, log 11). -/
def State.abortedMem (s : State) : List Host.Cell :=
  if s.phase = .mWr ∧ s.eng.windowAddr < Config.memSpan ∧ s.isDevice s.eng.windowAddr = false ∧ Config.freeBool s.freeCtr = true
  then Memory.write s.mem s.eng.windowAddr s.eng.maskedByte else s.mem

/-- The memory's coming answers after a reset: a transaction in flight takes its answer with it (log 12). -/
def State.abortedResponses (s : State) : List Response :=
  match s.phase with
  | .mMark | .mRd | .mWr => s.responses.tail
  | .idle | .gRun | .mCheck | .mKgen | .finish => s.responses

/-- The reset input (R240, R242): every register at its reset value, the engine IDLE, its hidden state dead. Memory and the
environment stay; a running command is aborted and no result register is written. A window byte whose write has already been
answered BUSERR keeps its free value (`storeFailed`): DESIGN CHOICE, log 32. -/
def State.resetBlock (s : State) : State :=
  { State.reset with
    mem := settleRaces s.raced (s.freeCtr + 1) s.abortedMem,
    eng := Config.freeEngine (s.freeCtr + 1 + s.raced.length),
    work := Config.freeWork (s.freeCtr + 1 + s.raced.length),
    freeCtr := s.freeCtr + s.raced.length + 2,
    devices := s.devices, responses := s.abortedResponses, host := s.host, slack := s.slack, temps := s.temps }

end Sys2Proof.Machine
end

