-- ==== Sys2Proof/Machine/Keystream.lean ====
section
/-! DEFINITION. The keystream generator: the block function (R120 to R126) and the engine step of G_RUN (R127, R131). -/

namespace Sys2Proof.Machine

/-- InitState (R120). -/
def initState (key : Vector Byte 32) (counter : Word) (nonce : Vector Byte 12) : Vector Word 16 :=
  #v[Config.sigma[0], Config.sigma[1], Config.sigma[2], Config.sigma[3],
    le32Load key 0 (by decide), le32Load key 4 (by decide), le32Load key 8 (by decide), le32Load key 12 (by decide),
    le32Load key 16 (by decide), le32Load key 20 (by decide), le32Load key 24 (by decide), le32Load key 28 (by decide),
    counter, le32Load nonce 0 (by decide), le32Load nonce 4 (by decide), le32Load nonce 8 (by decide)]

/-- x[a] <- x[a] +32 x[b]; x[d] <- x[d] ^ x[a]; x[d] <- rotl32(x[d], n): one line of R122. -/
def mixLine (x : Vector Word 16) (a b d : Fin 16) (n : Nat) : Vector Word 16 :=
  let x := x.set a (x[a] + x[b])
  let x := x.set d (x[d] ^^^ x[a])
  x.set d (rotl32 x[d] n)

/-- The quarter-round QR(a, b, c, d) (R122). -/
def quarterRound (x : Vector Word 16) (a b c d : Fin 16) : Vector Word 16 :=
  let x := mixLine x a b d 16
  let x := mixLine x c d b 12
  let x := mixLine x a b d 8
  mixLine x c d b 7

/-- A column round (R123). -/
def columnRound (x : Vector Word 16) : Vector Word 16 :=
  let x := quarterRound x 0 4 8 12
  let x := quarterRound x 1 5 9 13
  let x := quarterRound x 2 6 10 14
  quarterRound x 3 7 11 15

/-- A diagonal round (R123). -/
def diagonalRound (x : Vector Word 16) : Vector Word 16 :=
  let x := quarterRound x 0 5 10 15
  let x := quarterRound x 1 6 11 12
  let x := quarterRound x 2 7 8 13
  quarterRound x 3 4 9 14

/-- `n` double-rounds, each a column round and then a diagonal round (R123, R124). -/
@[irreducible] def doubleRounds : Nat → Vector Word 16 → Vector Word 16
  | 0, x => x
  | n + 1, x => doubleRounds n (diagonalRound (columnRound x))

/-- The feed-forward (R125). -/
def feedForward (x s0 : Vector Word 16) : Vector Word 16 := Vector.ofFn fun i => x[i] + s0[i]

/-- The sixteen output words of a block (R120 to R125). -/
def blockWords (key : Vector Byte 32) (counter : Word) (nonce : Vector Byte 12) : Vector Word 16 :=
  feedForward (doubleRounds Config.doubleRounds (initState key counter nonce)) (initState key counter nonce)

/-- KS (R13, R126): the keystream block. -/
def keystream (key : Vector Byte 32) (counter : Word) (nonce : Vector Byte 12) : Vector Byte 64 :=
  le32StoreAll (blockWords key counter nonce)

/-- The working state as a block starts (R120): s0, and x a copy of it. -/
def State.loadBlock (s : State) (counter : Word) : State :=
  { s with work := { x := initState s.eng.key counter s.eng.nonce, s0 := initState s.eng.key counter s.eng.nonce } }

/-- The 20 rounds on the working state (R124). -/
def State.runRounds (s : State) : State := { s with work := { s.work with x := doubleRounds Config.doubleRounds s.work.x } }

/-- The output words the working state gives (R125). -/
def State.blockOut (s : State) : Vector Word 16 := feedForward s.work.x s.work.s0

/-- The block of a counter, computed on the working state from the latched key and nonce (R120 to R125). -/
def State.blockOnWork (s : State) (counter : Word) : Vector Word 16 := (s.loadBlock counter).runRounds.blockOut

/-- The working state after a block: unspecified (R21, U1, log 8). -/
def State.releaseWork (s : State) : State := { s with work := Config.freeWork s.freeCtr, freeCtr := s.freeCtr + 1 }

/-- Phase G_RUN (R127, R128, R131): the block of the latched key, counter and nonce, in one step. -/
def State.stepGRun (s : State) : State :=
  { s.releaseWork with
    eng := { s.eng with res := { outcome := .ok, winLen := 0, bytesDone := 0, blocks := 1, ks := s.blockOnWork s.eng.counter } },
    phase := .finish }

end Sys2Proof.Machine
end

