-- ==== Sys2Proof/Machine/HeaderMask.lean ====
section
/-! DEFINITION. The header XOR mask controller: the engine steps of MASK_HEADER (R168), and its big-step form (R150). -/

namespace Sys2Proof.Machine

/-! Engine steps (R168). -/

/-- M_CHECK: size = 0, the address range, size < 8, in this order (R151, R152, R154, R158). -/
def State.stepMCheck (s : State) : State :=
  if s.eng.size = 0 then s.raise .skipEmpty 0 0 0
  else if Config.memSpan < s.eng.base.toNat + s.eng.size.toNat then s.raise .errAddrRange 0 0 0
  else if s.eng.size.toNat < 8 then s.raise .skipTooSmallHeader 0 0 0
  else { s with eng := { s.eng with markCount := 0 }, phase := .mMark }

/-- The marker as the four bytes read give it (R60, R156). -/
def Engine.marker (e : Engine) : Word := le32 e.mark[0] e.mark[1] e.mark[2] e.mark[3]

/-- A marker byte has been read (R168, M_MARK's `else`): count it and, after the fourth, judge the marker (R156, R157, R161). -/
def State.markRead (s : State) (r : Byte) : State :=
  let t := { s with eng := { s.eng with mark := s.eng.mark.setIfInBounds s.eng.markCount.toNat r,
                                        markCount := s.eng.markCount + 1 } }
  if t.eng.markCount.toNat < 4 then { t with phase := .mMark }
  else if t.eng.marker ≠ Config.magic then t.raise .skipFormatMismatch 0 0 0
  else if t.eng.size = 8 then t.raise .skipTooSmallNoWindow 0 0 0
  else { t with eng := { t.eng with win := BitVec.ofNat 32 (windowLength t.eng.size.toNat), off := 0, ctr := 0 },
                phase := .mKgen }

/-- M_MARK: one marker byte (R155). -/
def State.stepMMark (s : State) : Result :=
  memRead s (s.eng.base.toNat + s.eng.markCount.toNat) (fun r t => .next (t.markRead r)) (fun t => .next (t.raise .errBus 0 0 0))

/-- The keystream block of counter `ctr`, computed on the working state, into `kbuf` (R163). -/
def State.fillKbuf (s : State) : State :=
  { s.releaseWork with eng := { s.eng with kbuf := le32StoreAll (s.blockOnWork s.eng.ctr) } }

/-- M_KGEN: the block of counter `ctr` (R162, R163). -/
def State.stepMKgen (s : State) : State := { s.fillKbuf with phase := .mRd }

/-- A BUSERR on a window byte (R167). -/
def State.windowError (s : State) : State := s.raise .errBus s.eng.win s.eng.off (s.eng.ctr + 1)

/-- M_RD: read the window byte (R164). -/
def State.stepMRd (s : State) : Result :=
  memRead s s.eng.windowAddr (fun r t => .next { t with eng := { t.eng with rbyte := r }, phase := .mWr })
    (fun t => .next t.windowError)

/-- The window byte has been written (R168, M_WR's `else`). -/
def State.byteDone (s : State) : State :=
  let t := { s with eng := { s.eng with off := s.eng.off + 1 } }
  if t.eng.off = t.eng.win then t.raise .ok t.eng.win t.eng.win (t.eng.ctr + 1)
  else if t.eng.off.toNat % Config.blockBytes = 0 then { t with eng := { t.eng with ctr := t.eng.ctr + 1 }, phase := .mKgen }
  else { t with phase := .mRd }

/-- M_WR: write the masked byte back (R163, R165). -/
def State.stepMWr (s : State) : Result :=
  memWrite s s.eng.windowAddr s.eng.maskedByte (fun t => .next t.byteDone) (fun t => .next t.windowError)

/-! The big-step form (R150). `complete` is `raise` with the FINISH step after it. -/

/-- `raise` (R205) and the completion it leads to (R206). -/
def State.complete (s : State) (c : OutcomeCode) (winLen bytesDone blocks : Word) : Result :=
  .next (s.raise c winLen bytesDone blocks).finish

/-- The marker reads at `base + j` for the offsets `j` listed, then `k` of the bytes read (R155). -/
def readMarker (base : Nat) : List Nat → List Byte → State → (List Byte → State → Result) → Result
  | [], m, s, k => k m s
  | j :: js, m, s, k =>
    memRead s (base + j) (fun b t => readMarker base js (m ++ [b]) t k) (fun t => t.complete .errBus 0 0 0)

/-- The bytes of one keystream block `kbuf`: `n` of them, from byte `i` of the block on, the first at window offset
`off + i`; then `k` (R163, R164). -/
def maskBlock (base : Nat) (kbuf : Vector Byte 64) (win off ctr : Nat) : Nat → Nat → State → (State → Result) → Result
  | 0, _, s, k => k s
  | n + 1, i, s, k =>
    memRead s (base + Config.hdrOffset + off + i)
      (fun b t =>
        memWrite t (base + Config.hdrOffset + off + i) (b ^^^ kbuf[i % Config.blockBytes]'(Nat.mod_lt _ (by decide)))
          (fun u => maskBlock base kbuf win off ctr n (i + 1) u k)
          (fun u => u.complete .errBus (BitVec.ofNat 32 win) (BitVec.ofNat 32 (off + i)) (BitVec.ofNat 32 (ctr + 1))))
      (fun t => t.complete .errBus (BitVec.ofNat 32 win) (BitVec.ofNat 32 (off + i)) (BitVec.ofNat 32 (ctr + 1)))

/-- The loop over keystream blocks (R150), `fuel` blocks at most. -/
def maskWindow (base win : Nat) : Nat → Nat → Nat → State → Result
  | 0, _, ctr, s => s.complete .ok (BitVec.ofNat 32 win) (BitVec.ofNat 32 win) (BitVec.ofNat 32 ctr)
  | fuel + 1, off, ctr, s =>
    if off < win then
      let kbuf := keystream Config.fixedKey (BitVec.ofNat 32 ctr) Config.fixedNonce
      let n := min Config.blockBytes (win - off)
      maskBlock base kbuf win off ctr n 0 s.releaseWork fun t => maskWindow base win fuel (off + n) (ctr + 1) t
    else s.complete .ok (BitVec.ofNat 32 win) (BitVec.ofNat 32 win) (BitVec.ofNat 32 ctr)

/-- The pseudocode of R150, from an accepted MASK_HEADER to its completion. -/
def maskHeaderBig (base size : Nat) (s : State) : Result :=
  if size = 0 then s.complete .skipEmpty 0 0 0
  else if Config.memSpan < base + size then s.complete .errAddrRange 0 0 0
  else if size < 8 then s.complete .skipTooSmallHeader 0 0 0
  else readMarker base [0, 1, 2, 3] [] s fun m t =>
    if le32 (m.getD 0 0) (m.getD 1 0) (m.getD 2 0) (m.getD 3 0) ≠ Config.magic then t.complete .skipFormatMismatch 0 0 0
    else if size = 8 then t.complete .skipTooSmallNoWindow 0 0 0
    else maskWindow base (windowLength size) (Config.windowCap / Config.blockBytes) 0 0 t

end Sys2Proof.Machine
end

