-- ==== Sys2Proof/Machine/Engine.lean ====
section
/-! DEFINITION. The engine agent: one transition by phase (R131, R168, R206), and the transitions between two host turns. -/

namespace Sys2Proof.Machine

/-- One engine transition (R131, R168). An IDLE engine has none. -/
def engineStep (s : State) : Result :=
  match s.phase with
  | .idle => .next s
  | .gRun => .next s.stepGRun
  | .mCheck => .next s.stepMCheck
  | .mMark => s.stepMMark
  | .mKgen => .next s.stepMKgen
  | .mRd => s.stepMRd
  | .mWr => s.stepMWr
  | .finish => .next s.finish

/-- `n` engine transitions, fewer if the engine becomes IDLE first. -/
def runEngine : Nat → State → Result
  | 0, s => .next s
  | n + 1, s =>
    match s.phase with
    | .idle => .next s
    | .gRun | .mCheck | .mMark | .mKgen | .mRd | .mWr | .finish => andThen (engineStep s) (runEngine n)

/-- The most engine transitions a command takes (R253; log 22): M_CHECK, 4 marker reads, 8 blocks, 0x200 reads, 0x200 writes,
FINISH. -/
def maxCommandSteps : Nat := 1 + 4 + 8 + 0x200 + 0x200 + 1

/-- The number of engine transitions a slack grants. -/
def Slack.count : Slack → Nat
  | .steps n => n
  | .untilIdle => maxCommandSteps

/-- The engine transitions before the host's next turn. -/
def advance (s : State) : Result := runEngine s.slack.count s

/-- The engine transitions after a poll that found BUSY = 1: at least one, by the weak fairness of R252 (log 17). -/
def advanceFair (s : State) : Result := runEngine (max 1 s.slack.count) s

end Sys2Proof.Machine
end

