-- ==== Sys2Proof/Machine/Commands.lean ====
section
/-! DEFINITION. The meaning of each command, and of a bad command: acceptance (R94) or drop (R95), and then the engine steps
that run before the host's next turn (R131, R168, R206). -/

namespace Sys2Proof.Machine

/-- A CMD write: dropped while BUSY = 1 (R95), else accepted as `accepted` gives it (R94). -/
def State.issue (s : State) (accepted : State) : State := if s.status.busy then s.dropCommand else accepted

/-- Acceptance of GEN_BLOCK (R94, R127): the key, nonce and counter registers are latched. -/
def State.acceptGenBlock (s : State) : State :=
  s.accept { s.eng with op := .instr .genBlock, key := s.keyFromRegs, nonce := s.nonceFromRegs, counter := s.counter } .gRun

/-- Acceptance of GEN_BLOCK_FIXED (R94, R128): FIXED_KEY, FIXED_NONCE and the counter register are latched. -/
def State.acceptGenBlockFixed (s : State) : State :=
  s.accept { s.eng with op := .instr .genBlockFixed, key := Config.fixedKey, nonce := Config.fixedNonce, counter := s.counter }
    .gRun

/-- Acceptance of MASK_HEADER (R94, R150): FIXED_KEY, FIXED_NONCE and the buffer registers are latched. -/
def State.acceptMaskHeader (s : State) : State :=
  s.accept { s.eng with op := .instr .maskHeader, key := Config.fixedKey, nonce := Config.fixedNonce, base := s.bufBase,
                        size := s.bufSize } .mCheck

/-- Acceptance of a bad command (R94, R207): no operand is latched, and it goes straight to FINISH. -/
def State.acceptBad (s : State) (why : BadWord) : State := (s.accept { s.eng with op := .bad why } s.phase).raise .errBadCmd 0 0 0

/-- GEN_BLOCK (R127). -/
def execGenBlock (s : State) : Result := advance (s.issue s.acceptGenBlock)

/-- GEN_BLOCK_FIXED (R128). -/
def execGenBlockFixed (s : State) : Result := advance (s.issue s.acceptGenBlockFixed)

/-- MASK_HEADER (R150). -/
def execMaskHeader (s : State) : Result := advance (s.issue s.acceptMaskHeader)

/-- A bad command (R92, R207), which is no row of the opcode table (log 25). -/
def execBad (why : BadWord) (s : State) : Result := advance (s.issue (s.acceptBad why))

end Sys2Proof.Machine
end

