-- ==== Sys2Proof/Machine/Dispatch.lean ====
section
/-! DEFINITION. exec: one arm per command, each one call of that command's meaning. -/

namespace Sys2Proof.Machine

def exec (i : Instr) (s : State) : Host.Outcome State Fault Refusal :=
  match i with
  | .genBlock => Sys2Proof.Machine.execGenBlock s
  | .genBlockFixed => Sys2Proof.Machine.execGenBlockFixed s
  | .maskHeader => Sys2Proof.Machine.execMaskHeader s

end Sys2Proof.Machine
end

