-- ==== Sys2Proof/Machine/RegPort.lean ====
section
/-! DEFINITION. The register map (R23 to R35) and the host's reads and writes of the registers (R97, R98). -/

namespace Sys2Proof.Machine

/-- The names of R23. -/
inductive Reg where
  | cmd
  | status
  | counter
  | winLen
  | bytesDone
  | blocks
  | key (i : Fin 8)
  | nonce (i : Fin 3)
  | bufBaseLo
  | bufBaseHi
  | bufSizeLo
  | bufSizeHi
  | ks (i : Fin 16)
  deriving DecidableEq, Repr

/-- The access codes of R23; a reserved offset is RAZ/WI and has no name. -/
inductive Access where
  | rw
  | ro
  | wo
  | w1c
  deriving DecidableEq, Repr

/-- The byte offset of a register from REG_BASE (R23). -/
def Reg.offset : Reg → Nat
  | .cmd => 0x000
  | .status => 0x004
  | .counter => 0x008
  | .winLen => 0x00C
  | .bytesDone => 0x010
  | .blocks => 0x014
  | .key i => 0x020 + 4 * i.val
  | .nonce i => 0x040 + 4 * i.val
  | .bufBaseLo => 0x050
  | .bufBaseHi => 0x054
  | .bufSizeLo => 0x058
  | .bufSizeHi => 0x05C
  | .ks i => 0x080 + 4 * i.val

/-- The access code of a register (R23); STATUS is read only but for its bit 3, which is W1C (R25). -/
def Reg.access : Reg → Access
  | .cmd => .wo
  | .status => .w1c
  | .winLen | .bytesDone | .blocks | .ks _ => .ro
  | .counter | .key _ | .nonce _ | .bufBaseLo | .bufBaseHi | .bufSizeLo | .bufSizeHi => .rw

/-- The register at an aligned offset of the block, none where the offset is reserved (R23, R35). -/
def Reg.ofOffset (o : Nat) : Option Reg :=
  if o = 0x000 then some .cmd
  else if o = 0x004 then some .status
  else if o = 0x008 then some .counter
  else if o = 0x00C then some .winLen
  else if o = 0x010 then some .bytesDone
  else if o = 0x014 then some .blocks
  else if 0x020 ≤ o ∧ o < 0x040 then some (.key (Fin.ofNat 8 ((o - 0x020) / 4)))
  else if 0x040 ≤ o ∧ o < 0x04C then some (.nonce (Fin.ofNat 3 ((o - 0x040) / 4)))
  else if o = 0x050 then some .bufBaseLo
  else if o = 0x054 then some .bufBaseHi
  else if o = 0x058 then some .bufSizeLo
  else if o = 0x05C then some .bufSizeHi
  else if 0x080 ≤ o ∧ o < 0x0C0 then some (.ks (Fin.ofNat 16 ((o - 0x080) / 4)))
  else none

/-- The platform address of a register (R8, R41, R215). -/
def Reg.busAddress (r : Reg) : Nat := Config.regBase + r.offset

/-- The value a host read of a register returns (R24 to R34). -/
def State.readReg (s : State) : Reg → Word
  | .cmd => 0
  | .status => s.status.toWord
  | .counter => s.counter
  | .winLen => s.winLen
  | .bytesDone => s.bytesDone
  | .blocks => s.blocks
  | .key i => s.key[i]
  | .nonce i => s.nonce[i]
  | .bufBaseLo => s.bufBaseLo
  | .bufBaseHi => s.bufBaseHi
  | .bufSizeLo => s.bufSizeLo
  | .bufSizeHi => s.bufSizeHi
  | .ks i => s.ks[i]

/-- A host write of a register other than CMD (R25 to R34, R98). A write to CMD is a command request (R24), not a register
write: it is the instruction fetch. -/
def State.writeReg (s : State) (r : Reg) (v : Word) : State :=
  match r with
  | .cmd => s
  | .status => { s with status := s.status.hostWrite v }
  | .counter => { s with counter := v }
  | .winLen => s
  | .bytesDone => s
  | .blocks => s
  | .key i => { s with key := s.key.set i v }
  | .nonce i => { s with nonce := s.nonce.set i v }
  | .bufBaseLo => { s with bufBaseLo := v }
  | .bufBaseHi => { s with bufBaseHi := v }
  | .bufSizeLo => { s with bufSizeLo := v }
  | .bufSizeHi => { s with bufSizeHi := v }
  | .ks _ => s

/-- A host read at an offset: a reserved offset reads 0 (R35). -/
def State.readOffset (s : State) (o : Nat) : Word :=
  match Reg.ofOffset o with
  | some r => s.readReg r
  | none => 0

/-- A host write at an offset: a reserved offset ignores it (R35). -/
def State.writeOffset (s : State) (o : Nat) (v : Word) : State :=
  match Reg.ofOffset o with
  | some r => s.writeReg r v
  | none => s

/-- The refusal of an access to which R97 gives no meaning, none for an access the port accepts (log 18). -/
def portRefusal (a : PortAccess) : Option Refusal :=
  if !a.widthOk then some (.portWidth a.width)
  else if !a.inBlock then some (.portOutside a.offset)
  else if !a.aligned then some (.portMisaligned a.offset)
  else none

end Sys2Proof.Machine
end

