-- ==== Sys2Proof/Machine/HostPort.lean ====
section
/-! DEFINITION. The host agent (R20): its turns on the register port (R97, R98, R101), its accesses to memory (R41, R74), the
reset input (R240), and the fetch of a command word, which is its write to CMD (R24). -/

namespace Sys2Proof.Machine

/-- A host temporary (R101). -/
def State.temp (s : State) (t : Nat) : Word := cellsRead 0 s.temps t

/-- A host temporary written. -/
def State.setTemp (s : State) (t : Nat) (v : Word) : State := { s with temps := cellsWrite 0 s.temps t v }

/-- The bytes a running MASK_HEADER may touch (R74): offsets 0 to 3, and 8 to 8 + WINDOW_CAP - 1, of the latched buffer. -/
def State.touchable (s : State) (a : Nat) : Bool :=
  s.status.busy && s.eng.op == .instr .maskHeader &&
    (decide (s.eng.base.toNat ≤ a ∧ a < s.eng.base.toNat + 4) ||
      decide (s.eng.base.toNat + Config.hdrOffset ≤ a ∧ a < s.eng.base.toNat + Config.hdrOffset + Config.windowCap))

/-- The host writes a byte of memory: in the touched range it is a race (R74, log 9). -/
def State.hostStore (s : State) (a : Nat) (v : Byte) : State :=
  if s.touchable a then { s.stored a v with raced := if a ∈ s.raced then s.raced else a :: s.raced } else s.stored a v

/-- The host reads a byte of memory into a temporary: in the touched range it reads any value (R74, log 9). -/
def State.hostLoad (s : State) (a t : Nat) : State :=
  if s.touchable a then { s.setTemp t ((Config.freeByte s.freeCtr).setWidth 32) with freeCtr := s.freeCtr + 1 }
  else s.setTemp t ((s.readByte a).setWidth 32)

/-- One poll of `wait_done` (R101): `rd STATUS -> t0; if t0[0] = 1 goto L`. While BUSY = 1 the turn stays the next one. -/
def State.poll (s : State) (turn : HostTurn) : Result :=
  let t := s.setTemp 0 (s.readReg .status)
  if (t.temp 0).getLsbD 0 then advanceFair { t with host := turn :: t.host } else advance t

/-- What the next step has before it. -/
inductive Fetched where
  /-- A command word the host writes to CMD, and the state it is written in. -/
  | command (w : Word) (s : State)
  /-- Anything else, already done. -/
  | done (o : Result)

/-- A host turn in the state where it has been taken off the list. -/
def hostTurn (s : State) (turn : HostTurn) : Fetched :=
  match turn.op with
  | .wr a v =>
    match portRefusal a with
    | some r => .done (.refused r)
    | none => if Reg.ofOffset a.offset = some .cmd then .command v s else .done (advance (s.writeOffset a.offset v))
  | .rd a t =>
    match portRefusal a with
    | some r => .done (.refused r)
    | none => .done (advance (s.setTemp t (s.readOffset a.offset)))
  | .waitDone => .done (s.poll turn)
  | .memWr a v =>
    if s.isDevice a.toNat then .done (.refused (.hostDeviceAccess a.toNat)) else .done (advance (s.hostStore a.toNat v))
  | .memRd a t =>
    if s.isDevice a.toNat then .done (.refused (.hostDeviceAccess a.toNat)) else .done (advance (s.hostLoad a.toNat t))
  | .reset => .done (advance s.resetBlock)
  | .pause => .done (advance s)

/-- The next move (log 1): the host's next turn, or one engine step where the host has none. -/
def fetch (s : State) : Fetched :=
  match s.host with
  | [] => .done (engineStep s)
  | turn :: rest => hostTurn { s with host := rest, slack := turn.slack } turn

/-- The turns with which the host hands over a command word and then waits for the engine. -/
def commandTurn (w : Word) (slack : Slack) : HostTurn := { op := .wr { offset := Reg.offset .cmd, width := 4 } w, slack := slack }

/-! The host notation of R101, each statement a list of turns with the slack `k` after each. -/

/-- `wr NAME, imm32`. -/
def wrTurn (k : Slack) (r : Reg) (v : Word) : HostTurn := { op := .wr { offset := r.offset, width := 4 } v, slack := k }

/-- `rd NAME -> tN`. -/
def rdTurn (k : Slack) (r : Reg) (t : Nat) : HostTurn := { op := .rd { offset := r.offset, width := 4 } t, slack := k }

/-- `cmd MNEMONIC`. -/
def cmdTurn (k : Slack) (i : Instr) : HostTurn := commandTurn (encode i) k

/-- `wait_done`. -/
def waitDone (k : Slack) : HostTurn := { op := .waitDone, slack := k }

/-- `setkey k0,...,k7`. -/
def setKey (k : Slack) (v : Vector Word 8) : List HostTurn := (List.finRange 8).map fun i => wrTurn k (.key i) v[i]

/-- `setnonce n0,n1,n2`. -/
def setNonce (k : Slack) (v : Vector Word 3) : List HostTurn := (List.finRange 3).map fun i => wrTurn k (.nonce i) v[i]

/-- `gen c`. -/
def gen (k : Slack) (c : Word) : List HostTurn := [wrTurn k .counter c, cmdTurn k .genBlock, waitDone k]

/-- `genf c`. -/
def genFixed (k : Slack) (c : Word) : List HostTurn := [wrTurn k .counter c, cmdTurn k .genBlockFixed, waitDone k]

/-- `mask base, size`. -/
def mask (k : Slack) (base size : DWord) : List HostTurn :=
  [wrTurn k .bufBaseLo (base.extractLsb' 0 32), wrTurn k .bufBaseHi (base.extractLsb' 32 32),
    wrTurn k .bufSizeLo (size.extractLsb' 0 32), wrTurn k .bufSizeHi (size.extractLsb' 32 32), cmdTurn k .maskHeader, waitDone k]

/-- `clrdrop`. -/
def clrDrop (k : Slack) : List HostTurn := [wrTurn k .status 0x00000008]

end Sys2Proof.Machine
end

