-- ==== Sys2Proof/Machine/Step.lean ====
section
/-! DEFINITION. One step of the machine: the next move, and exec where it is a command word (R94). -/

namespace Sys2Proof.Machine

/-- One step: a command word is decoded (R93) and run; every other move is the agents' own. -/
def step (s : State) : Host.Outcome State Fault Refusal :=
  match fetch s with
  | .command w t =>
    match decode w with
    | .instr i => exec i t
    | .bad why => execBad why t
  | .done o => o

/-- The state with a command word as the host's next turn: a write of it to CMD, after which the host leaves the block alone
until it is IDLE (log 2, log 29). -/
def State.withFetchWord (s : State) (nbits w : Nat) : State :=
  { s with host := commandTurn (BitVec.ofNat 32 (w % 2 ^ nbits)) .untilIdle :: s.host }

end Sys2Proof.Machine
end

