-- ==== Sys2Proof/Safety.lean ====
section
/-! DEFINITION. The terms in which claims about the machine are stated: the invariant of every reachable state (R25, R40, R202),
the memory that answers, and what a window of MASK_HEADER holds. -/

namespace Sys2Proof.Machine

/-- The invariants of R25, with R203 for DIAG and R25's own text for OUTCOME. -/
def Status.Legal (t : Status) : Prop :=
  (t.busy = true → t.done = false ∧ t.diag = false ∧ t.outcome = .none) ∧
  (t.done = true ↔ t.outcome ≠ .none) ∧
  (t.diag = t.outcome.diag)

/-- ceil(n / 64) (R166, R169). -/
def blocksFor (n : Nat) : Nat := (n + (Config.blockBytes - 1)) / Config.blockBytes

/-- The rows of R202: which WIN_LEN, BYTES_DONE and BLOCKS go with an outcome. -/
def LegalResult (c : OutcomeCode) (winLen bytesDone blocks : Word) : Prop :=
  match c with
  | .ok =>
    (winLen = 0 ∧ bytesDone = 0 ∧ blocks = 1) ∨
    (1 ≤ winLen.toNat ∧ winLen.toNat ≤ Config.windowCap ∧ bytesDone = winLen ∧ blocks.toNat = blocksFor winLen.toNat)
  | .errBus =>
    (winLen = 0 ∧ bytesDone = 0 ∧ blocks = 0) ∨
    (winLen.toNat ≤ Config.windowCap ∧ bytesDone.toNat < winLen.toNat ∧ blocks.toNat = bytesDone.toNat / Config.blockBytes + 1)
  | .none | .skipEmpty | .skipTooSmallHeader | .skipFormatMismatch | .skipTooSmallNoWindow | .errAddrRange | .errBadCmd =>
    winLen = 0 ∧ bytesDone = 0 ∧ blocks = 0

/-- The result registers are those of some completed command, the last one while DONE = 1 (R27 to R29, R202). -/
def State.ResultsLegal (s : State) : Prop :=
  ∃ c, LegalResult c s.winLen s.bytesDone s.blocks ∧ (s.status.done = true → c = s.status.outcome)

/-- A MASK_HEADER past M_CHECK: its latches are those of R94 and its buffer lies in the memory space (R158). -/
def Engine.BufferOk (e : Engine) : Prop :=
  e.op = .instr .maskHeader ∧ e.key = Config.fixedKey ∧ e.nonce = Config.fixedNonce ∧ 8 ≤ e.size.toNat ∧
    e.base.toNat + e.size.toNat ≤ Config.memSpan

/-- A MASK_HEADER in its window (R161, R162): the window, the offset inside it, the block counter of that offset. -/
def Engine.WindowOk (e : Engine) : Prop :=
  e.BufferOk ∧ 8 < e.size.toNat ∧ e.win.toNat = windowLength e.size.toNat ∧ e.off.toNat < e.win.toNat ∧
    e.ctr.toNat = e.off.toNat / Config.blockBytes

/-- What the hidden state satisfies in each phase (R39, R168). -/
def State.EngineOk (s : State) : Prop :=
  match s.phase with
  | .idle => s.raced = []
  | .gRun => s.eng.op = .instr .genBlock ∨ s.eng.op = .instr .genBlockFixed
  | .mCheck => s.eng.op = .instr .maskHeader ∧ s.eng.key = Config.fixedKey ∧ s.eng.nonce = Config.fixedNonce
  | .mMark => s.eng.BufferOk ∧ s.eng.markCount.toNat < 4
  | .mKgen => s.eng.WindowOk ∧ s.eng.off.toNat % Config.blockBytes = 0
  | .mRd | .mWr => s.eng.WindowOk ∧ s.eng.kbuf = keystream Config.fixedKey s.eng.ctr Config.fixedNonce
  | .finish =>
    s.eng.res.outcome ≠ .none ∧ LegalResult s.eng.res.outcome s.eng.res.winLen s.eng.res.bytesDone s.eng.res.blocks

/-- The canonical form of the sparse data: memory, and the host temporaries. -/
def State.Canonical (s : State) : Prop :=
  Memory.wf s.mem = true ∧ cellsWf (0 : Word) s.temps = true ∧ ∀ a ∈ s.raced, a < Config.memSpan

/-- The invariant of every reachable state: STATUS (R25), BUSY against the phase (R40), the result registers (R202), the
hidden state of each phase (R39), the canonical form. -/
def Inv (s : State) : Prop :=
  s.status.Legal ∧ (s.status.busy = true ↔ s.phase ≠ .idle) ∧ s.ResultsLegal ∧ s.EngineOk ∧ s.Canonical

/-- Every transaction to come is answered (R68, R251). -/
def State.Answered (s : State) : Prop := Response.never ∉ s.responses

/-- Every transaction to come is answered OK. -/
def State.AllOk (s : State) : Prop := ∀ r ∈ s.responses, r = .ok

/-- No byte of the buffer is in memory with side effects (R67). -/
def State.BufferOrdinary (s : State) : Prop :=
  ∀ a, s.bufBase.toNat ≤ a → a < s.bufBase.toNat + s.bufSize.toNat → s.isDevice a = false

/-- The number of engine steps of a MASK_HEADER that masks `n` window bytes and ends with OK (R168, R253). -/
def okSteps (n : Nat) : Nat := 1 + 4 + blocksFor n + 2 * n + 1

/-- The state a command leaves when it completes and no byte is in a race: the result registers, STATUS (CMD_DROPPED
unchanged) and the IDLE engine, whose hidden state is dead; nothing else (R206). -/
def State.completedBy (s : State) (c : OutcomeCode) (winLen bytesDone blocks : Word) : State :=
  { s with
    winLen := winLen, bytesDone := bytesDone, blocks := blocks,
    status := { busy := false, done := true, diag := c.diag, cmdDropped := s.status.cmdDropped, outcome := c },
    phase := .idle, raced := [], eng := Config.freeEngine s.freeCtr, freeCtr := s.freeCtr + 1 }

/-- The state with `n` keystream blocks computed on the working state (R21) and `k` answers of the memory used. -/
def State.worked (s : State) (n k : Nat) : State :=
  { s with
    work := if n = 0 then s.work else Config.freeWork (s.freeCtr + (n - 1)), freeCtr := s.freeCtr + n,
    responses := s.responses.drop k }

/-- The marker bytes in memory match (R156). -/
abbrev State.MarkerAt (s : State) (base : Nat) : Prop :=
  le32 (s.readByte base) (s.readByte (base + 1)) (s.readByte (base + 2)) (s.readByte (base + 3)) = Config.magic

/-- Keystream byte `i` of a window (R163): byte `i mod 64` of block `i div 64`. -/
def windowKeyByte (i : Nat) : Byte :=
  (keystream Config.fixedKey (BitVec.ofNat 32 (i / Config.blockBytes)) Config.fixedNonce)[i % Config.blockBytes]'(Nat.mod_lt _ (by decide))

/-- The byte at `a` once the first `k` bytes of the window at `base + 8` are masked (R163, R165). -/
def State.maskedPrefix (s : State) (base k a : Nat) : Byte :=
  if base + Config.hdrOffset ≤ a ∧ a < base + Config.hdrOffset + k
  then s.readByte a ^^^ windowKeyByte (a - (base + Config.hdrOffset))
  else s.readByte a

end Sys2Proof.Machine
end

