-- ==== Sys2Proof/Certificates/Slice0/Obligations.lean ====
section
/-! DEFINITION. The statements for the provers, from the numbered rules of spec/. -/

open Sys2Proof Sys2Proof.Machine

/-! Encoding (30_encoding.md). -/

/-- R91, V22 to V26: words written out from the spec's encoding decode to the commands they stand for. -/
def Obligations.TableWordsDecode : Prop :=
  decode 0x00000001 = .instr .genBlock ∧ decode 0x00000002 = .instr .genBlockFixed ∧ decode 0x00000003 = .instr .maskHeader ∧
  decode 0x00000000 = .bad .reservedOp ∧ decode 0x00000004 = .bad .reservedOp ∧ decode 0x0000000F = .bad .reservedOp ∧
  decode 0x00000013 = .bad .reservedBits ∧ decode 0x80000001 = .bad .reservedBits

/-- R91, R102: each command has exactly one word, and every other word is a bad command. -/
def Obligations.DecodeMeetsExactlyTheEncodedWord : Prop :=
  (∀ (w : Word) (i : Instr), decode w = .instr i ↔ w = encode i) ∧
  (∀ w : Word, (∃ why, decode w = .bad why) ↔ w ≠ 0x00000001 ∧ w ≠ 0x00000002 ∧ w ≠ 0x00000003)

/-- R92: what makes a word a bad command, by name. -/
def Obligations.BadCommandWords : Prop :=
  ∀ w : Word,
    (decode w = .bad .reservedBits ↔ rsvdField w ≠ 0) ∧
    (decode w = .bad .reservedOp ↔ rsvdField w = 0 ∧ (opField w = 0x0 ∨ 0x4 ≤ (opField w).toNat))

/-! The step (30_encoding.md R94, R97, R101; 60_exceptions.md R209). -/

/-- R93, R94: when the host's next turn is a CMD write of a command's word, the step is exec of that command, in the state
where the turn is taken off the list and its slack holds. -/
def Obligations.StepRunsTheDecodedCommand : Prop :=
  ∀ (s : State) (w : Word) (k : Slack) (rest : List HostTurn) (i : Instr),
    s.host = commandTurn w k :: rest → decode w = .instr i → step s = exec i { s with host := rest, slack := k }

/-- R207: a bad command, accepted by an IDLE block, completes with ERR_BAD_CMD after the FINISH step; nothing else changes
(KS, memory, operand registers, working state). The dead hidden state and its free value are the model's (log 7). -/
def Obligations.BadCommandCompletes : Prop :=
  ∀ (s : State) (w : Word) (k : Slack) (rest : List HostTurn) (why : BadWord),
    s.host = commandTurn w k :: rest → decode w = .bad why → s.status.busy = false → 1 ≤ k.count →
    step s = .next ({ s with host := rest, slack := k }.completedBy .errBadCmd 0 0 0)

/-- R97: the accesses to which the port gives no meaning are refused, each by its name, at reads and at writes. -/
def Obligations.PortAccessesOutsideTheRulesAreRefused : Prop :=
  ∀ (s : State) (a : PortAccess) (v : Word) (t : Nat) (k : Slack) (rest : List HostTurn),
    (s.host = { op := .wr a v, slack := k } :: rest ∨ s.host = { op := .rd a t, slack := k } :: rest) →
    (a.width ≠ 4 → step s = .refused (.portWidth a.width)) ∧
    (a.width = 4 → 0x100 ≤ a.offset → step s = .refused (.portOutside a.offset)) ∧
    (a.width = 4 → a.offset < 0x100 → a.offset % 4 ≠ 0 → step s = .refused (.portMisaligned a.offset))

/-- R98, R101: a register write other than CMD takes effect at once, in any state of the engine; with no slack nothing else
happens. A read puts the register in its temporary. Reserved offsets are RAZ/WI (R35). -/
def Obligations.PortReadsAndWritesTakeEffect : Prop :=
  ∀ (s : State) (o : Nat) (v : Word) (t : Nat) (rest : List HostTurn), o < 0x100 → o % 4 = 0 →
    (s.host = { op := .wr { offset := o, width := 4 } v, slack := .steps 0 } :: rest → o ≠ 0 →
      step s = .next ({ s with host := rest, slack := .steps 0 }.writeOffset o v)) ∧
    (s.host = { op := .rd { offset := o, width := 4 } t, slack := .steps 0 } :: rest →
      step s = .next ({ s with host := rest, slack := .steps 0 }.setTemp t (s.readOffset o)))

/-- R101: one poll of wait_done. It reads STATUS into t0; with BUSY = 0 the host goes on, with BUSY = 1 it polls again, after
at least one engine step (the fairness of R252; log 17). -/
def Obligations.WaitDonePolls : Prop :=
  ∀ (s : State) (k : Slack) (rest : List HostTurn), s.host = waitDone k :: rest →
    (s.status.busy = false → s.phase = .idle →
      step s = .next ({ s with host := rest, slack := k }.setTemp 0 s.status.toWord)) ∧
    (s.status.busy = true →
      step s = runEngine (max 1 k.count) ({ s with slack := k }.setTemp 0 s.status.toWord))

/-- R209, U16: a CMD write before the engine's FINISH step is dropped; after it, it is accepted. Both orders exist. -/
def Obligations.CommandAroundFinishBothOrders : Prop :=
  ∀ (s : State) (i : Instr), s.status.busy = true → s.phase = .finish → s.slack = .steps 0 →
    exec i s = .next { s with status := { s.status with cmdDropped := true } } ∧
    ∃ t u, engineStep s = .next t ∧ exec i t = .next u ∧ u.status.busy = true ∧ u.status.cmdDropped = s.status.cmdDropped

/-! The register map (10_state.md). -/

/-- R23: every register answers at its own offset, and an aligned offset that no register has is reserved. -/
def Obligations.EveryRegisterAtItsOffset : Prop :=
  (∀ r : Reg, Reg.ofOffset r.offset = some r) ∧ (∀ (o : Nat) (r : Reg), o % 4 = 0 → Reg.ofOffset o = some r → o = r.offset)

/-- R35: the aligned offsets of the block that no register has are exactly these, they read 0 and ignore writes; the reserved
bits of STATUS (the only register but CMD that has reserved bits) read 0 and ignore writes too. -/
def Obligations.ReservedOffsetsReadZeroIgnoreWrites : Prop :=
  ∀ (s : State) (v : Word),
    (∀ o, o < 0x100 → o % 4 = 0 →
      ((∀ r : Reg, r.offset ≠ o) ↔ o = 0x018 ∨ o = 0x01C ∨ o = 0x04C ∨ (0x060 ≤ o ∧ o ≤ 0x07C) ∨ 0x0C0 ≤ o) ∧
      ((∀ r : Reg, r.offset ≠ o) → s.readOffset o = 0 ∧ s.writeOffset o v = s)) ∧
    (s.readReg .status).extractLsb' 8 24 = 0 ∧ s.writeReg .status v = s.writeReg .status (v &&& 0x000000FF)

/-- R23, R24, R98: a write to an RW register reads back and changes no other register; a write to an RO register is ignored;
CMD, the only write-only register, reads 0 in every state. -/
def Obligations.RegisterWriteReadsBack : Prop :=
  ∀ (s : State) (r : Reg) (v : Word),
    (r.access = .rw → (s.writeReg r v).readReg r = v ∧ ∀ q : Reg, q ≠ r → (s.writeReg r v).readReg q = s.readReg q) ∧
    (r.access = .ro → s.writeReg r v = s) ∧
    (r.access = .wo ↔ r = .cmd) ∧ s.readReg .cmd = 0 ∧ s.readOffset 0x000 = 0

/-- R25: "A host write to STATUS changes only CMD_DROPPED: writing 1 to bit 3 clears it." -/
def Obligations.StatusWriteClearsOnlyDropped : Prop :=
  ∀ (s : State) (v : Word),
    s.writeReg .status v = { s with status := { s.status with cmdDropped := if v.getLsbD 3 then false else s.status.cmdDropped } }

/-- R25, R201: the bits of STATUS, and the code of each outcome in bits [7:4]. -/
def Obligations.StatusWordFields : Prop :=
  ∀ s : State,
    (s.readReg .status).getLsbD 0 = s.status.busy ∧ (s.readReg .status).getLsbD 1 = s.status.done ∧
    (s.readReg .status).getLsbD 2 = s.status.diag ∧ (s.readReg .status).getLsbD 3 = s.status.cmdDropped ∧
    (s.readReg .status).extractLsb' 4 4 =
      (match s.status.outcome with
        | .none => 0
        | .ok => 1
        | .skipEmpty => 2
        | .skipTooSmallHeader => 3
        | .skipFormatMismatch => 4
        | .skipTooSmallNoWindow => 5
        | .errAddrRange => 6
        | .errBus => 7
        | .errBadCmd => 8) ∧
    (s.readReg .status).extractLsb' 8 24 = 0

/-! Reset (70_reset_and_hazards.md). -/

/-- R240, V30: after reset every offset of the register block reads 0 and the engine is IDLE. -/
def Obligations.ResetReadsZeroEverywhere : Prop :=
  (∀ o, State.reset.readOffset o = 0) ∧ State.reset.phase = .idle

/-- R240, R242: the reset input, whenever it comes. Every register reads 0, the engine is IDLE. A byte of memory that is in no
race keeps its value, but for the window byte whose write was in flight, which may have been masked. -/
def Obligations.ResetInputAborts : Prop :=
  ∀ (s : State) (k : Slack) (rest : List HostTurn), s.host = { op := .reset, slack := k } :: rest →
    ∃ t, step s = .next t ∧ (∀ r : Reg, t.readReg r = 0) ∧ t.phase = .idle ∧ t.host = rest ∧ t.temps = s.temps ∧
      t.devices = s.devices ∧
      ∀ a, a ∉ s.raced → t.readByte a = s.readByte a ∨
        (s.phase = .mWr ∧ a = s.eng.windowAddr ∧ t.readByte a = s.eng.maskedByte)

/-- R241: a GEN_BLOCK right after reset computes KS(32 zero bytes, 0, 12 zero bytes). -/
def Obligations.GenBlockRightAfterReset : Prop :=
  ∃ t, step (State.reset.withFetchWord 32 0x00000001) = .next t ∧ t.status.outcome = .ok ∧
    t.ks = blockWords (Vector.replicate 32 0) 0 (Vector.replicate 12 0)

/-- R241: a MASK_HEADER right after reset sees size = 0 and ends with SKIP_EMPTY. -/
def Obligations.MaskHeaderRightAfterReset : Prop :=
  ∃ t, step (State.reset.withFetchWord 32 0x00000003) = .next t ∧ t.status.outcome = .skipEmpty ∧ t.phase = .idle

/-! Acceptance (30_encoding.md R94 to R96). -/

/-- R94: what acceptance latches, with the engine left alone: STATUS, the latches of each command, the first phase. Every
result register keeps its value. -/
def Obligations.AcceptanceLatchesOperands : Prop :=
  ∀ s : State, s.status.busy = false → s.slack = .steps 0 →
    exec .genBlock s = .next { s with
      status := { busy := true, done := false, diag := false, cmdDropped := s.status.cmdDropped, outcome := .none },
      eng := { s.eng with op := .instr .genBlock, key := s.keyFromRegs, nonce := s.nonceFromRegs, counter := s.counter },
      phase := .gRun, raced := [] } ∧
    exec .genBlockFixed s = .next { s with
      status := { busy := true, done := false, diag := false, cmdDropped := s.status.cmdDropped, outcome := .none },
      eng := { s.eng with
        op := .instr .genBlockFixed, key := Config.fixedKey, nonce := Config.fixedNonce, counter := s.counter },
      phase := .gRun, raced := [] } ∧
    exec .maskHeader s = .next { s with
      status := { busy := true, done := false, diag := false, cmdDropped := s.status.cmdDropped, outcome := .none },
      eng := { s.eng with
        op := .instr .maskHeader, key := Config.fixedKey, nonce := Config.fixedNonce, base := s.bufBase, size := s.bufSize },
      phase := .mCheck, raced := [] }

/-- R95, R208: a CMD write of any word while BUSY = 1 only sets CMD_DROPPED, and CMD_DROPPED stays 1 until the host writes
STATUS with bit 3 = 1 or the block is reset. -/
def Obligations.CommandWhileBusyIsDropped : Prop :=
  (∀ (s : State) (w : Word) (rest : List HostTurn), s.status.busy = true → s.host = commandTurn w (.steps 0) :: rest →
    step s = .next { s with host := rest, slack := .steps 0, status := { s.status with cmdDropped := true } }) ∧
  (∀ s t : State, s.status.cmdDropped = true → step s = .next t → t.status.cmdDropped = false →
    (∃ k rest, s.host = { op := .reset, slack := k } :: rest) ∨
    (∃ a v k rest, s.host = { op := .wr a v, slack := k } :: rest ∧ a.offset = 0x004 ∧ v.getLsbD 3 = true))

/-- R96: how the operands are built from the registers. The latched key and nonce, read as the words of the block function, are
the registers themselves. -/
def Obligations.OperandWordsAreTheRegisters : Prop :=
  ∀ (s : State) (c : Word),
    s.bufBase = s.readReg .bufBaseHi ++ s.readReg .bufBaseLo ∧ s.bufSize = s.readReg .bufSizeHi ++ s.readReg .bufSizeLo ∧
    (∀ i : Fin 8, (initState s.keyFromRegs c s.nonceFromRegs)[4 + i.val] = s.key[i]) ∧
    (∀ i : Fin 3, (initState s.keyFromRegs c s.nonceFromRegs)[13 + i.val] = s.nonce[i]) ∧
    (∀ (i : Fin 8) (k : Fin 4), s.keyFromRegs[4 * i.val + k.val] = s.key[i].extractLsb' (8 * k.val) 8) ∧
    (∀ (i : Fin 3) (k : Fin 4), s.nonceFromRegs[4 * i.val + k.val] = s.nonce[i].extractLsb' (8 * k.val) 8)

/-! The keystream generator (40_keystream.md). -/

/-- R120: the initial state, with the counter word used exactly as given (R129); the four constants store as the ASCII text
`expand 32-byte k`, and the working state starts as a copy (the rounds run on it, and it is what R125 adds). -/
def Obligations.InitialStateWords : Prop :=
  ∀ (key : Vector Byte 32) (c : Word) (nonce : Vector Byte 12),
    (initState key c nonce)[0] = 0x61707865 ∧ (initState key c nonce)[1] = 0x3320646e ∧
    (initState key c nonce)[2] = 0x79622d32 ∧ (initState key c nonce)[3] = 0x6b206574 ∧ (initState key c nonce)[12] = c ∧
    (∀ i : Fin 8, (initState key c nonce)[4 + i.val] = le32Load key (4 * i.val) (by omega)) ∧
    (∀ i : Fin 3, (initState key c nonce)[13 + i.val] = le32Load nonce (4 * i.val) (by omega)) ∧
    (∀ j : Fin 16, ((initState key c nonce)[j.val / 4]).extractLsb' (8 * (j.val % 4)) 8 =
      (#v[0x65, 0x78, 0x70, 0x61, 0x6e, 0x64, 0x20, 0x33, 0x32, 0x2d, 0x62, 0x79, 0x74, 0x65, 0x20, 0x6b] : Vector Byte 16)[j]) ∧
    (∀ i : Fin 16, (blockWords key c nonce)[i] = (doubleRounds 10 (initState key c nonce))[i] + (initState key c nonce)[i])

/-- R122: the quarter-round on distinct indices, as the twelve operations give it, and every other word unchanged. -/
def Obligations.QuarterRoundOperations : Prop :=
  ∀ (x : Vector Word 16) (a b c d : Fin 16), a ≠ b → a ≠ c → a ≠ d → b ≠ c → b ≠ d → c ≠ d →
    let a1 := x[a] + x[b]; let d1 := rotl32 (x[d] ^^^ a1) 16
    let c1 := x[c] + d1; let b1 := rotl32 (x[b] ^^^ c1) 12
    let a2 := a1 + b1; let d2 := rotl32 (d1 ^^^ a2) 8
    let c2 := c1 + d2; let b2 := rotl32 (b1 ^^^ c2) 7
    (quarterRound x a b c d)[a] = a2 ∧ (quarterRound x a b c d)[b] = b2 ∧ (quarterRound x a b c d)[c] = c2 ∧
    (quarterRound x a b c d)[d] = d2 ∧
    ∀ i : Fin 16, i ≠ a → i ≠ b → i ≠ c → i ≠ d → (quarterRound x a b c d)[i] = x[i]

/-- R130: quarter-rounds on disjoint index sets commute, so the four of one column round, or of one diagonal round, give the
same state in any order. -/
def Obligations.DisjointQuarterRoundsCommute : Prop :=
  (∀ (x : Vector Word 16) (a b c d a' b' c' d' : Fin 16), (∀ i ∈ [a, b, c, d], i ∉ [a', b', c', d']) →
    quarterRound (quarterRound x a b c d) a' b' c' d' = quarterRound (quarterRound x a' b' c' d') a b c d) ∧
  (∀ (x : Vector Word 16) (l : List (Fin 16 × Fin 16 × Fin 16 × Fin 16)),
    l.Perm [(0, 4, 8, 12), (1, 5, 9, 13), (2, 6, 10, 14), (3, 7, 11, 15)] →
    l.foldl (fun y q => quarterRound y q.1 q.2.1 q.2.2.1 q.2.2.2) x = columnRound x) ∧
  (∀ (x : Vector Word 16) (l : List (Fin 16 × Fin 16 × Fin 16 × Fin 16)),
    l.Perm [(0, 5, 10, 15), (1, 6, 11, 12), (2, 7, 8, 13), (3, 4, 9, 14)] →
    l.foldl (fun y q => quarterRound y q.1 q.2.1 q.2.2.1 q.2.2.2) x = diagonalRound x)

/-- R123 to R126: byte `j` of the keystream block is byte `j mod 4` of output word `j div 4`, which is the word after ten
double-rounds plus the initial word. The double-rounds are applied one after another, each a column round and then a diagonal
round. -/
def Obligations.KeystreamByteSerialisation : Prop :=
  (∀ (key : Vector Byte 32) (c : Word) (nonce : Vector Byte 12) (j : Fin 64),
    (keystream key c nonce)[j] =
      ((doubleRounds 10 (initState key c nonce))[j.val / 4] + (initState key c nonce)[j.val / 4]).extractLsb' (8 * (j.val % 4)) 8) ∧
  (∀ x : Vector Word 16, doubleRounds 0 x = x) ∧
  (∀ (n : Nat) (x : Vector Word 16), doubleRounds (n + 1) x = doubleRounds n (diagonalRound (columnRound x))) ∧
  (∀ x : Vector Word 16, columnRound x =
    quarterRound (quarterRound (quarterRound (quarterRound x 0 4 8 12) 1 5 9 13) 2 6 10 14) 3 7 11 15) ∧
  (∀ x : Vector Word 16, diagonalRound x =
    quarterRound (quarterRound (quarterRound (quarterRound x 0 5 10 15) 1 6 11 12) 2 7 8 13) 3 4 9 14)

/-- R127, R206: GEN_BLOCK completes with OK and the block of the key, nonce and counter registers in KS0 to KS15; nothing else
changes but the result registers, STATUS and what is dead or unspecified afterwards (the hidden state and x, s0: free
values, log 7, log 8). COUNTER is not incremented (R129). -/
def Obligations.GenBlockCompletes : Prop :=
  ∀ s : State, s.status.busy = false → 2 ≤ s.slack.count →
    exec .genBlock s = .next
      { (s.worked 1 0).completedBy .ok 0 0 1 with ks := blockWords s.keyFromRegs s.counter s.nonceFromRegs }

/-- R128: GEN_BLOCK_FIXED completes as GEN_BLOCK does, with FIXED_KEY and FIXED_NONCE. -/
def Obligations.GenBlockFixedCompletes : Prop :=
  ∀ s : State, s.status.busy = false → 2 ≤ s.slack.count →
    exec .genBlockFixed s = .next
      { (s.worked 1 0).completedBy .ok 0 0 1 with ks := blockWords Config.fixedKey s.counter Config.fixedNonce }

/-- R34, R126, R127: after GEN_BLOCK, keystream byte `j` is read from KS register `j div 4`. -/
def Obligations.KeystreamReadThroughTheRegisters : Prop :=
  ∀ s : State, s.status.busy = false → 2 ≤ s.slack.count →
    ∃ t, exec .genBlock s = .next t ∧ ∀ j : Fin 64,
      ((t.readOffset (0x080 + 4 * (j.val / 4))).extractLsb' (8 * (j.val % 4)) 8) =
        (keystream s.keyFromRegs s.counter s.nonceFromRegs)[j]

/-! MASK_HEADER (41_header_mask.md). -/

/-- R152: size = 0. -/
def Obligations.MaskHeaderSkipsEmpty : Prop :=
  ∀ s : State, s.status.busy = false → 2 ≤ s.slack.count → s.bufSize.toNat = 0 →
    exec .maskHeader s = .next (s.completedBy .skipEmpty 0 0 0)

/-- R158: a buffer past the top of the address space. -/
def Obligations.MaskHeaderChecksTheAddressRange : Prop :=
  ∀ s : State, s.status.busy = false → 2 ≤ s.slack.count → 1 ≤ s.bufSize.toNat →
    2 ^ 64 < s.bufBase.toNat + s.bufSize.toNat → exec .maskHeader s = .next (s.completedBy .errAddrRange 0 0 0)

/-- R154, C1: 1 to 7 bytes, whatever they are; no transaction. -/
def Obligations.MaskHeaderSkipsTooSmallForTheHeader : Prop :=
  ∀ s : State, s.status.busy = false → 2 ≤ s.slack.count → 1 ≤ s.bufSize.toNat → s.bufSize.toNat ≤ 7 →
    s.bufBase.toNat + s.bufSize.toNat ≤ 2 ^ 64 → exec .maskHeader s = .next (s.completedBy .skipTooSmallHeader 0 0 0)

/-- R155: a BUSERR on marker byte `k`: the command ends at once with ERR_BUS, nothing written. -/
def Obligations.MaskHeaderMarkerBusError : Prop :=
  ∀ (s : State) (k : Nat) (rs : List Response), s.status.busy = false → 3 + k ≤ s.slack.count → 8 ≤ s.bufSize.toNat →
    s.bufBase.toNat + s.bufSize.toNat ≤ 2 ^ 64 → s.BufferOrdinary → k < 4 →
    s.responses = List.replicate k .ok ++ .busErr :: rs →
    exec .maskHeader s = .next ((s.worked 0 (k + 1)).completedBy .errBus 0 0 0)

/-- R156: the marker does not match; the four marker reads and nothing else. -/
def Obligations.MaskHeaderSkipsForeignFormat : Prop :=
  ∀ s : State, s.status.busy = false → 6 ≤ s.slack.count → 8 ≤ s.bufSize.toNat →
    s.bufBase.toNat + s.bufSize.toNat ≤ 2 ^ 64 → s.BufferOrdinary → (∀ r ∈ s.responses.take 4, r = .ok) →
    ¬ s.MarkerAt s.bufBase.toNat → exec .maskHeader s = .next ((s.worked 0 4).completedBy .skipFormatMismatch 0 0 0)

/-- R157: the marker matches and size = 8. -/
def Obligations.MaskHeaderSkipsWithoutWindow : Prop :=
  ∀ s : State, s.status.busy = false → 6 ≤ s.slack.count → s.bufSize.toNat = 8 →
    s.bufBase.toNat + s.bufSize.toNat ≤ 2 ^ 64 → s.BufferOrdinary → (∀ r ∈ s.responses.take 4, r = .ok) →
    s.MarkerAt s.bufBase.toNat → exec .maskHeader s = .next ((s.worked 0 4).completedBy .skipTooSmallNoWindow 0 0 0)

/-- R161, R163, R165, R166: the marker matches and size > 8, every transaction answered OK. The window, and no other byte, is
XORed with the keystream; 4 + 2 * window_length transactions; BLOCKS = ceil(window_length / 64). -/
def Obligations.MaskHeaderMasksTheWindow : Prop :=
  ∀ s : State, s.status.busy = false → 8 < s.bufSize.toNat → s.bufBase.toNat + s.bufSize.toNat ≤ 2 ^ 64 →
    s.BufferOrdinary → s.MarkerAt s.bufBase.toNat →
    let n := min 0x200 (s.bufSize.toNat - 8)
    okSteps n ≤ s.slack.count → (∀ r ∈ s.responses.take (4 + 2 * n), r = .ok) →
    ∃ m, exec .maskHeader s = .next
        { (s.worked (blocksFor n) (4 + 2 * n)).completedBy .ok (BitVec.ofNat 32 n) (BitVec.ofNat 32 n)
            (BitVec.ofNat 32 (blocksFor n)) with mem := m } ∧
      ∀ a, Memory.read m a = s.maskedPrefix s.bufBase.toNat n a

/-- R167: a BUSERR on the read of window byte `k`: bytes 0 to k - 1 are masked, every other byte is unchanged. -/
def Obligations.MaskHeaderWindowReadBusError : Prop :=
  ∀ (s : State) (k : Nat) (rs : List Response), s.status.busy = false → 8 < s.bufSize.toNat →
    s.bufBase.toNat + s.bufSize.toNat ≤ 2 ^ 64 → s.BufferOrdinary → s.MarkerAt s.bufBase.toNat →
    let n := min 0x200 (s.bufSize.toNat - 8)
    k < n → okSteps n ≤ s.slack.count → s.responses = List.replicate (4 + 2 * k) .ok ++ .busErr :: rs →
    ∃ m, exec .maskHeader s = .next
        { (s.worked (k / 64 + 1) (4 + 2 * k + 1)).completedBy .errBus (BitVec.ofNat 32 n) (BitVec.ofNat 32 k)
            (BitVec.ofNat 32 (k / 64 + 1)) with mem := m } ∧
      ∀ a, Memory.read m a = s.maskedPrefix s.bufBase.toNat k a

/-- R167: a BUSERR on the write of window byte `k`: bytes 0 to k - 1 are masked, byte `k` holds any value, every other byte is
unchanged. -/
def Obligations.MaskHeaderWindowWriteBusError : Prop :=
  ∀ (s : State) (k : Nat) (rs : List Response), s.status.busy = false → 8 < s.bufSize.toNat →
    s.bufBase.toNat + s.bufSize.toNat ≤ 2 ^ 64 → s.BufferOrdinary → s.MarkerAt s.bufBase.toNat →
    let n := min 0x200 (s.bufSize.toNat - 8)
    k < n → okSteps n ≤ s.slack.count → s.responses = List.replicate (4 + 2 * k + 1) .ok ++ .busErr :: rs →
    ∃ t, exec .maskHeader s = .next t ∧
      t.status = { busy := false, done := true, diag := false, cmdDropped := s.status.cmdDropped, outcome := .errBus } ∧
      t.winLen = BitVec.ofNat 32 n ∧ t.bytesDone = BitVec.ofNat 32 k ∧ t.blocks = BitVec.ofNat 32 (k / 64 + 1) ∧
      t.responses = rs ∧ t.phase = .idle ∧ t.ks = s.ks ∧
      ∀ a, a ≠ s.bufBase.toNat + 8 + k → t.readByte a = s.maskedPrefix s.bufBase.toNat k a

/-- The frame of MASK_HEADER, on every path and with any slack (R26, R30, R34, R160, R165, R206): the operand registers, KS,
CMD_DROPPED, the host's side and every byte outside the window are unchanged. The window is
[base + 8, base + 8 + min(0x200, size - 8)). -/
def Obligations.MaskHeaderFrame : Prop :=
  ∀ s t : State, s.status.busy = false → exec .maskHeader s = .next t →
    t.counter = s.counter ∧ t.key = s.key ∧ t.nonce = s.nonce ∧ t.bufBaseLo = s.bufBaseLo ∧ t.bufBaseHi = s.bufBaseHi ∧
    t.bufSizeLo = s.bufSizeLo ∧ t.bufSizeHi = s.bufSizeHi ∧ t.ks = s.ks ∧ t.status.cmdDropped = s.status.cmdDropped ∧
    t.devices = s.devices ∧ t.host = s.host ∧ t.temps = s.temps ∧
    ∀ a, ¬ (s.bufBase.toNat + 8 ≤ a ∧ a < s.bufBase.toNat + 8 + min 0x200 (s.bufSize.toNat - 8)) →
      t.readByte a = s.readByte a

/-- R171: an outcome other than OK and ERR_BUS leaves memory as it was, and so does, whatever its outcome, a MASK_HEADER on a
buffer of 8 bytes or more without the marker. -/
def Obligations.SkippedBufferIsUnchanged : Prop :=
  ∀ s t : State, s.status.busy = false → exec .maskHeader s = .next t →
    (t.status.done = true → t.status.outcome ≠ .ok → t.status.outcome ≠ .errBus → t.mem = s.mem) ∧
    (8 ≤ s.bufSize.toNat → ¬ s.MarkerAt s.bufBase.toNat → t.mem = s.mem)

/-- R172: the outcome `c`, DIAG and the number `n` of bytes masked as a function of size and marker, for a buffer inside the
address space with no bus error. -/
def Obligations.OutcomeBySizeAndMarker : Prop :=
  ∀ s : State, s.status.busy = false → s.slack = .untilIdle → s.AllOk → s.BufferOrdinary →
    s.bufBase.toNat + s.bufSize.toNat ≤ 2 ^ 64 →
    ∃ (t : State) (c : OutcomeCode) (diag : Bool) (n : Nat),
      exec .maskHeader s = .next t ∧
      t.status = { busy := false, done := true, diag := diag, cmdDropped := s.status.cmdDropped, outcome := c } ∧
      t.bytesDone.toNat = n ∧ (∀ a, t.readByte a = s.maskedPrefix s.bufBase.toNat n a) ∧
      (s.bufSize.toNat = 0 → c = .skipEmpty ∧ diag = false ∧ n = 0) ∧
      (1 ≤ s.bufSize.toNat → s.bufSize.toNat ≤ 7 → c = .skipTooSmallHeader ∧ diag = true ∧ n = 0) ∧
      (8 ≤ s.bufSize.toNat → ¬ s.MarkerAt s.bufBase.toNat → c = .skipFormatMismatch ∧ diag = true ∧ n = 0) ∧
      (s.bufSize.toNat = 8 → s.MarkerAt s.bufBase.toNat → c = .skipTooSmallNoWindow ∧ diag = true ∧ n = 0) ∧
      (9 ≤ s.bufSize.toNat → s.bufSize.toNat ≤ 0x208 → s.MarkerAt s.bufBase.toNat →
        c = .ok ∧ diag = false ∧ n = s.bufSize.toNat - 8) ∧
      (0x209 ≤ s.bufSize.toNat → s.MarkerAt s.bufBase.toNat → c = .ok ∧ diag = false ∧ n = 0x200)

/-- The frame of the generator commands, with any slack (R26, R127, R131): no memory transaction, and no register but KS, the
result registers and STATUS. -/
def Obligations.GeneratorFrame : Prop :=
  ∀ s t : State, s.status.busy = false → (exec .genBlock s = .next t ∨ exec .genBlockFixed s = .next t) →
    t.mem = s.mem ∧ t.responses = s.responses ∧ t.counter = s.counter ∧ t.key = s.key ∧ t.nonce = s.nonce ∧
    t.bufBaseLo = s.bufBaseLo ∧ t.bufBaseHi = s.bufBaseHi ∧ t.bufSizeLo = s.bufSizeLo ∧ t.bufSizeHi = s.bufSizeHi ∧
    t.status.cmdDropped = s.status.cmdDropped ∧ t.devices = s.devices ∧ t.host = s.host ∧ t.temps = s.temps

/-- R168: the engine steps and the pseudocode of R150 give the same transactions, in the same order, and the same results, for
a memory that answers. -/
def Obligations.EngineStepsMeetThePseudocode : Prop :=
  ∀ s : State, s.status.busy = false → s.Answered → s.slack = .untilIdle →
    exec .maskHeader s = maskHeaderBig s.bufBase.toNat s.bufSize.toNat
      (s.accept { s.eng with op := .instr .maskHeader, key := Config.fixedKey, nonce := Config.fixedNonce, base := s.bufBase,
                             size := s.bufSize } .mCheck)

/-- R170: MASK_HEADER is its own inverse. -/
def Obligations.MaskHeaderIsItsOwnInverse : Prop :=
  ∀ s t : State, s.status.busy = false → s.slack = .untilIdle → s.AllOk → s.BufferOrdinary →
    exec .maskHeader s = .next t → t.status.outcome = .ok →
    ∃ u, exec .maskHeader t = .next u ∧ u.status.outcome = .ok ∧ ∀ a, u.readByte a = s.readByte a

/-- R242: a MASK_HEADER stopped by a reset after any number `j` of engine steps, whatever the memory answered, a hang (R251)
included, leaves a masked prefix of the window, of some length `k`, and every other byte unchanged (the byte in flight, old or
masked, is in the prefix or not). The one exception is the model's choice (log 32): once the write of window byte `k` has been
answered BUSERR, that byte holds any value (R167), the reset or not, and nothing is said of it. -/
def Obligations.ResetLeavesAMaskedPrefix : Prop :=
  ∀ (s t : State) (j : Nat), s.status.busy = false → s.slack = .steps j → exec .maskHeader s = .next t →
    ∃ k, k ≤ min 0x200 (s.bufSize.toNat - 8) ∧ ∀ a,
      t.resetBlock.readByte a = s.maskedPrefix s.bufBase.toNat k a ∨
      (a = s.bufBase.toNat + 8 + k ∧ k < min 0x200 (s.bufSize.toNat - 8) ∧ s.responses[4 + 2 * k + 1]? = some .busErr ∧
        (t.phase = .finish ∨ t.phase = .idle))

/-! Whole-machine rules. -/

/-- The invariant (R25, R40, R202, R39; log 4 for the canonical form of memory) holds at reset. -/
def Obligations.InvariantHoldsAtReset : Prop := Inv State.reset

/-- The invariant is kept by every step of every agent. -/
def Obligations.EveryStepKeepsTheInvariant : Prop := ∀ s t : State, Inv s → step s = .next t → Inv t

/-- R200, R158: from a state that meets the invariant no step faults. -/
def Obligations.NoStepFaults : Prop := ∀ (s : State) (r : Fault), Inv s → step s ≠ .fault r

/-- A step is refused only for a host access that R97 gives no meaning to, or for memory with side effects (R67). -/
def Obligations.OnlyDutyViolationsAreRefused : Prop :=
  ∀ (s : State) (r : Refusal), step s = .refused r →
    (∃ w, r = .portWidth w ∧ w ≠ 4) ∨ (∃ o, r = .portOutside o ∧ 0x100 ≤ o) ∨ (∃ o, r = .portMisaligned o ∧ o % 4 ≠ 0) ∨
    (∃ a, r = .deviceMemory a ∧ s.isDevice a = true) ∨ (∃ a, r = .hostDeviceAccess a ∧ s.isDevice a = true)

/-- R253, R254: an accepted command is complete after at most 1038 engine steps if every transaction is answered, or it is
stopped at memory with side effects. -/
def Obligations.EveryCommandCompletes : Prop :=
  ∀ s : State, Inv s → s.Answered →
    (∃ t, runEngine 1038 s = .next t ∧ t.phase = .idle ∧ t.status.busy = false) ∨
    (∃ a, runEngine 1038 s = .refused (.deviceMemory a))

/-- R254: wait_done ends under the fairness of R252, if every transaction is answered and no memory has side effects. -/
def Obligations.WaitDoneEnds : Prop :=
  ∀ (s : State) (k : Slack) (rest : List HostTurn), Inv s → s.Answered → s.devices = [] → s.host = waitDone k :: rest →
    ∃ (n : Nat) (t : State), n ≤ 1039 ∧ (Host.Core.run Sys2Proof.core n s : Result) = .next t ∧ t.host = rest ∧ t.status.busy = false

/-- R251: a memory that never answers leaves the engine where it is, whatever time passes. -/
def Obligations.UnansweredTransactionHangs : Prop :=
  ∀ (s : State) (rs : List Response) (n : Nat), s.responses = .never :: rs →
    (s.phase = .mMark ∧ s.eng.base.toNat + s.eng.markCount.toNat < 2 ^ 64 ∧
        s.isDevice (s.eng.base.toNat + s.eng.markCount.toNat) = false ∨
      (s.phase = .mRd ∨ s.phase = .mWr) ∧ s.eng.windowAddr < 2 ^ 64 ∧ s.isDevice s.eng.windowAddr = false) →
    runEngine n s = .next s

/-- R98, R248: a write to an RW register while a command runs does not reach the command: the engine step commutes with it. -/
def Obligations.EngineIgnoresOperandRegisters : Prop :=
  ∀ (s : State) (r : Reg) (v : Word), r.access = .rw →
    engineStep (s.writeReg r v) = andThen (engineStep s) fun t => .next (t.writeReg r v)

/-- R150, R160: COUNTER, KEY and NONCE have no effect on MASK_HEADER. -/
def Obligations.MaskHeaderIgnoresKeyNonceCounter : Prop :=
  ∀ (s : State) (r : Reg) (v : Word), (r = .counter ∨ (∃ i, r = .key i) ∨ ∃ i, r = .nonce i) →
    exec .maskHeader (s.writeReg r v) = andThen (exec .maskHeader s) fun t => .next (t.writeReg r v)

/-- R39: "`ctr` and `kbuf` carry nothing from one command to the next": the hidden state of an IDLE engine has no effect on a
command that runs to completion. -/
def Obligations.IdleHiddenStateIsDead : Prop :=
  ∀ (s : State) (e : Engine) (i : Instr), s.status.busy = false → s.slack = .untilIdle → s.Answered →
    exec i { s with eng := e } = exec i s

/-- R34: only GEN_BLOCK and GEN_BLOCK_FIXED write KS0 to KS15, all sixteen at once at a completion with outcome OK. A step that
changes them, other than a reset, ends with that completion (DONE = 1), of a command that was running (BUSY = 1 in every state
that meets the invariant, R40) with one of the two latched, or that this step's CMD write has accepted. -/
def Obligations.OnlyGeneratorCommandsWriteKs : Prop :=
  ∀ s t : State, step s = .next t → t.ks ≠ s.ks →
    (∃ k rest, s.host = { op := .reset, slack := k } :: rest) ∨
    ((t.phase = .idle ∧ t.status.busy = false ∧ t.status.done = true ∧ t.status.outcome = .ok) ∧
      ((s.phase ≠ .idle ∧ (Inv s → s.status.busy = true) ∧
          (s.eng.op = .instr .genBlock ∨ s.eng.op = .instr .genBlockFixed) ∧
          (s.phase = .gRun → t.ks = blockWords s.eng.key s.eng.counter s.eng.nonce) ∧
          (s.phase ≠ .gRun → t.ks = s.eng.res.ks)) ∨
        (s.status.busy = false ∧
          ∃ a v k rest, s.host = { op := .wr a v, slack := k } :: rest ∧ a.offset = 0x000 ∧
            (v = 0x00000001 ∧ t.ks = blockWords s.keyFromRegs s.counter s.nonceFromRegs ∨
              v = 0x00000002 ∧ t.ks = blockWords Config.fixedKey s.counter Config.fixedNonce))))

/-- R94, R98, R206, R246: WIN_LEN, BYTES_DONE and BLOCKS keep the previous command's values until a command completes. A step
that changes one of them, other than a reset, ends with a completion (BUSY = 0, DONE = 1), of a command that was running (BUSY =
1 in every state that meets the invariant, R40) or that this step's CMD write has accepted. -/
def Obligations.ResultRegistersKeptUntilCompletion : Prop :=
  ∀ s t : State, step s = .next t → (t.winLen ≠ s.winLen ∨ t.bytesDone ≠ s.bytesDone ∨ t.blocks ≠ s.blocks) →
    (∃ k rest, s.host = { op := .reset, slack := k } :: rest) ∨
    ((t.phase = .idle ∧ t.status.busy = false ∧ t.status.done = true) ∧
      ((s.phase ≠ .idle ∧ (Inv s → s.status.busy = true)) ∨
        (s.status.busy = false ∧ ∃ a v k rest, s.host = { op := .wr a v, slack := k } :: rest ∧ a.offset = 0x000)))

/-- R26: no command modifies COUNTER; only a host write to it, or a reset, does. -/
def Obligations.OnlyTheHostWritesCounter : Prop :=
  ∀ s t : State, step s = .next t → t.counter ≠ s.counter →
    (∃ k rest, s.host = { op := .reset, slack := k } :: rest) ∨
    (∃ a v k rest, s.host = { op := .wr a v, slack := k } :: rest ∧ a.offset = 0x008 ∧ t.counter = v)

/-! Memory, and the race of R74 (20_memory.md). -/

/-- R67: a write followed by a read of the same byte returns the byte written, and leaves every other byte alone. -/
def Obligations.MemoryReadAfterWrite : Prop :=
  ∀ (m : List Host.Cell) (a b : Nat) (v : Byte),
    Memory.read (Memory.write m a v) b = if b = a then v else Memory.read m b

/-- R64, R165, R73, R74: what a step can change in memory. A byte that changes is the byte a host turn writes, a byte in a race
(log 9), or a byte of the window of the MASK_HEADER that is running, or that this step's CMD write has accepted; the window is
[base + 8, base + 8 + min(0x200, size - 8)) of its latches, the buffer registers for the one just accepted. -/
def Obligations.OnlyWindowRaceAndHostWritesChangeMemory : Prop :=
  ∀ (s t : State) (a : Nat), Inv s → step s = .next t → t.readByte a ≠ s.readByte a →
    (∃ d v k rest, s.host = { op := .memWr d v, slack := k } :: rest ∧ a = d.toNat) ∨
    a ∈ s.raced ∨
    (s.status.busy = true ∧ s.eng.op = .instr .maskHeader ∧ s.eng.base.toNat + 8 ≤ a ∧
      a < s.eng.base.toNat + 8 + min 0x200 (s.eng.size.toNat - 8)) ∨
    (s.status.busy = false ∧ (∃ p k rest, s.host = { op := .wr p 0x00000003, slack := k } :: rest ∧ p.offset = 0x000) ∧
      s.bufBase.toNat + 8 ≤ a ∧ a < s.bufBase.toNat + 8 + min 0x200 (s.bufSize.toNat - 8))

/-- R74: while a MASK_HEADER runs, offsets 0 to 3 and 8 to 8 + 0x200 - 1 of the latched buffer are in its range. A host write
into the range puts the byte in a race, and it stays there until the completion leaves it with any value (a free value, log 9); a
host read of the range returns any value, and so does the engine's own read of a byte in a race. Outside the range the host's
accesses are ordinary, and a host write changes no other byte. -/
def Obligations.RaceDrawsFreeValues : Prop :=
  ∀ s : State,
    (∀ a, s.touchable a = true ↔
      s.status.busy = true ∧ s.eng.op = .instr .maskHeader ∧
        (s.eng.base.toNat ≤ a ∧ a ≤ s.eng.base.toNat + 3 ∨
          s.eng.base.toNat + 8 ≤ a ∧ a ≤ s.eng.base.toNat + 8 + 0x1FF)) ∧
    (∀ (d : DWord) (v : Byte) (k : Slack) (rest : List HostTurn),
      s.host = { op := .memWr d v, slack := k } :: rest → s.isDevice d.toNat = false →
      ∃ u, step s = runEngine k.count u ∧
        (s.touchable d.toNat = true → u = { s with host := rest, slack := k, mem := u.mem, raced := u.raced } ∧
          d.toNat ∈ u.raced ∧ (∀ a ∈ u.raced, a = d.toNat ∨ a ∈ s.raced) ∧ (∀ a ∈ s.raced, a ∈ u.raced)) ∧
        (s.touchable d.toNat = false → u = { s with host := rest, slack := k, mem := u.mem } ∧ u.readByte d.toNat = v) ∧
        ∀ a, a ≠ d.toNat → u.readByte a = s.readByte a) ∧
    (∀ (d : DWord) (i : Nat) (k : Slack) (rest : List HostTurn),
      s.host = { op := .memRd d i, slack := k } :: rest → s.isDevice d.toNat = false →
      (s.touchable d.toNat = true →
        step s = runEngine k.count { { s with host := rest, slack := k }.setTemp i ((Config.freeByte s.freeCtr).setWidth 32) with
          freeCtr := s.freeCtr + 1 }) ∧
      (s.touchable d.toNat = false →
        step s = runEngine k.count ({ s with host := rest, slack := k }.setTemp i ((s.readByte d.toNat).setWidth 32)))) ∧
    (∀ t, engineStep s = .next t → ∀ a ∈ s.raced,
      a ∈ t.raced ∨ (t.phase = .idle ∧ ∃ n, t.readByte a = Config.freeByte n)) ∧
    (∀ t, engineStep s = .next t → s.phase = .mMark → s.eng.markCount.toNat < 4 →
      s.eng.base.toNat + s.eng.markCount.toNat ∈ s.raced → s.responses.head? = none ∨ s.responses.head? = some .ok →
      t.eng.mark[s.eng.markCount.toNat]? = some (Config.freeByte s.freeCtr) ∧ t.freeCtr = s.freeCtr + 1) ∧
    (∀ t, engineStep s = .next t → s.phase = .mRd → s.eng.windowAddr ∈ s.raced →
      s.responses.head? = none ∨ s.responses.head? = some .ok →
      t.eng.rbyte = Config.freeByte s.freeCtr ∧ t.freeCtr = s.freeCtr + 1)
end

