-- ==== Sys2Proof/Laws/Cells.lean ====
section
/-! SUPPORT. What the operations over sparse data and memory do: read after write, and the canonical form. -/

namespace Sys2Proof.Machine

variable {β : Type}

theorem cellsRead_erase_self (d : β) (m : List (Nat × β)) (a : Nat) : cellsRead d (cellsErase m a) a = d := by
  induction m with
  | nil => rfl
  | cons c m ih =>
    by_cases h : c.1 = a
    · rw [cellsErase, List.filter_cons_of_neg (by simp [h])]
      exact ih
    · rw [cellsErase, List.filter_cons_of_pos (by simp [h])]
      simp only [cellsRead, h, if_false]
      exact ih

theorem cellsRead_erase_of_ne (d : β) (m : List (Nat × β)) {a b : Nat} (hne : b ≠ a) :
    cellsRead d (cellsErase m a) b = cellsRead d m b := by
  induction m with
  | nil => rfl
  | cons c m ih =>
    obtain ⟨k, w⟩ := c
    by_cases h : k = a
    · have hb : k ≠ b := fun e => hne (e.symm.trans h)
      simpa [cellsErase, cellsRead, h, hb, hne.symm] using ih
    · by_cases hb : k = b
      · simp [cellsErase, cellsRead, hb, hne]
      · simpa [cellsErase, cellsRead, h, hb] using ih

theorem cellsRead_insert_self (d : β) (m : List (Nat × β)) (a : Nat) (v : β) (hm : ∀ c ∈ m, c.1 ≠ a) :
    cellsRead d (cellsInsert m a v) a = v := by
  induction m with
  | nil => simp [cellsInsert, cellsRead]
  | cons c m ih =>
    obtain ⟨k, w⟩ := c
    have hk : k ≠ a := hm (k, w) (by simp)
    by_cases h : a < k
    · simp [cellsInsert, cellsRead, h]
    · simpa [cellsInsert, cellsRead, h, hk] using ih fun c hc => hm c (by simp [hc])

theorem cellsRead_insert_of_ne (d : β) (m : List (Nat × β)) {a b : Nat} (v : β) (hne : b ≠ a) :
    cellsRead d (cellsInsert m a v) b = cellsRead d m b := by
  induction m with
  | nil => simp [cellsInsert, cellsRead, hne.symm]
  | cons c m ih =>
    obtain ⟨k, w⟩ := c
    by_cases h : a < k
    · simp [cellsInsert, cellsRead, h, hne.symm]
    · simp [cellsInsert, cellsRead, h, ih]

theorem ne_of_mem_cellsErase {m : List (Nat × β)} {a : Nat} : ∀ c ∈ cellsErase m a, c.1 ≠ a := by
  simp [cellsErase]

/-- A value written reads back. -/
@[simp] theorem cellsRead_write_self [DecidableEq β] (d : β) (m : List (Nat × β)) (a : Nat) (v : β) :
    cellsRead d (cellsWrite d m a v) a = v := by
  unfold cellsWrite
  split
  · next h => rw [cellsRead_erase_self, h]
  · exact cellsRead_insert_self d _ a v ne_of_mem_cellsErase

/-- A write leaves every other address alone. -/
theorem cellsRead_write_of_ne [DecidableEq β] (d : β) (m : List (Nat × β)) {a b : Nat} (v : β) (hne : b ≠ a) :
    cellsRead d (cellsWrite d m a v) b = cellsRead d m b := by
  unfold cellsWrite
  split
  · exact cellsRead_erase_of_ne d m hne
  · rw [cellsRead_insert_of_ne d _ v hne, cellsRead_erase_of_ne d m hne]

/-- The canonical form, said with the order and the absence of `d` apart. -/
theorem cellsWf_iff [DecidableEq β] (d : β) (m : List (Nat × β)) :
    cellsWf d m = true ↔ m.Pairwise (fun c c' => c.1 < c'.1) ∧ ∀ c ∈ m, c.2 ≠ d := by
  induction m with
  | nil => simp [cellsWf]
  | cons c m ih =>
    obtain ⟨k, v⟩ := c
    cases m with
    | nil => simp [cellsWf]
    | cons c' m =>
      obtain ⟨k', v'⟩ := c'
      simp only [cellsWf, Bool.and_eq_true, decide_eq_true_eq, ih, List.pairwise_cons, List.mem_cons, forall_eq_or_imp]
      constructor
      · rintro ⟨⟨hv, hk⟩, ⟨hlt, hp⟩, hd⟩
        exact ⟨⟨⟨hk, fun c hc => hk.trans (hlt c hc)⟩, hlt, hp⟩, hv, hd⟩
      · rintro ⟨⟨⟨hk, -⟩, hlt, hp⟩, hv, hd⟩
        exact ⟨⟨hv, hk⟩, ⟨hlt, hp⟩, hd⟩

theorem mem_cellsInsert {m : List (Nat × β)} {a : Nat} {v : β} {c : Nat × β} :
    c ∈ cellsInsert m a v ↔ c = (a, v) ∨ c ∈ m := by
  induction m with
  | nil => simp [cellsInsert]
  | cons e m ih =>
    obtain ⟨k, w⟩ := e
    by_cases h : a < k
    · simp [cellsInsert, h]
    · simp only [cellsInsert, h, if_false, List.mem_cons, ih]
      tauto

theorem pairwise_cellsInsert {m : List (Nat × β)} {a : Nat} (v : β) (hm : m.Pairwise fun c c' => c.1 < c'.1)
    (ha : ∀ c ∈ m, c.1 ≠ a) : (cellsInsert m a v).Pairwise fun c c' => c.1 < c'.1 := by
  induction m with
  | nil => simp [cellsInsert]
  | cons e m ih =>
    obtain ⟨k, w⟩ := e
    obtain ⟨hk, hp⟩ := List.pairwise_cons.mp hm
    by_cases h : a < k
    · simp only [cellsInsert, h, if_true, List.pairwise_cons]
      refine ⟨fun c hc => ?_, hk, hp⟩
      rcases List.mem_cons.mp hc with rfl | hc
      · exact h
      · exact h.trans (hk c hc)
    · have hka : k ≠ a := ha (k, w) (by simp)
      simp only [cellsInsert, h, if_false, List.pairwise_cons]
      refine ⟨fun c hc => ?_, ih hp fun c hc => ha c (by simp [hc])⟩
      rcases mem_cellsInsert.mp hc with rfl | hc
      · exact lt_of_le_of_ne (not_lt.mp h) hka
      · exact hk c hc

/-- A write keeps the canonical form. -/
theorem cellsWf_write [DecidableEq β] (d : β) (m : List (Nat × β)) (a : Nat) (v : β) (h : cellsWf d m = true) :
    cellsWf d (cellsWrite d m a v) = true := by
  rw [cellsWf_iff] at h ⊢
  obtain ⟨hp, hd⟩ := h
  have hpe : (cellsErase m a).Pairwise fun c c' => c.1 < c'.1 := hp.filter _
  have hde : ∀ c ∈ cellsErase m a, c.2 ≠ d := fun c hc => hd c (List.mem_filter.mp hc).1
  unfold cellsWrite
  split
  · exact ⟨hpe, hde⟩
  · next hv =>
    refine ⟨pairwise_cellsInsert v hpe ne_of_mem_cellsErase, fun c hc => ?_⟩
    rcases mem_cellsInsert.mp hc with rfl | hc
    · exact hv
    · exact hde c hc

theorem mem_of_mem_cellsWrite [DecidableEq β] {d : β} {m : List (Nat × β)} {a : Nat} {v : β} {c : Nat × β}
    (h : c ∈ cellsWrite d m a v) : c.1 = a ∨ c ∈ m := by
  unfold cellsWrite at h
  split at h
  · exact .inr (List.mem_filter.mp h).1
  · rcases mem_cellsInsert.mp h with rfl | h
    · exact .inl rfl
    · exact .inr (List.mem_filter.mp h).1

/-! Memory. -/

@[simp] theorem Memory.read_write_self (m : List Host.Cell) (a : Nat) (v : Byte) : Memory.read (Memory.write m a v) a = v :=
  cellsRead_write_self _ m a v

theorem Memory.read_write_of_ne (m : List Host.Cell) {a b : Nat} (v : Byte) (h : b ≠ a) :
    Memory.read (Memory.write m a v) b = Memory.read m b :=
  cellsRead_write_of_ne _ m v h

/-- Every memory write keeps the canonical form. -/
theorem Memory.wf_write {m : List Host.Cell} {a : Nat} (v : Byte) (h : Memory.wf m = true) (ha : a < Config.memSpan) :
    Memory.wf (Memory.write m a v) = true := by
  simp only [Memory.wf, Bool.and_eq_true, List.all_eq_true, decide_eq_true_eq] at h ⊢
  refine ⟨cellsWf_write _ m a v h.1, fun c hc => ?_⟩
  rcases mem_of_mem_cellsWrite hc with hc | hc
  · exact hc ▸ ha
  · exact h.2 c hc

/-- Settling a race keeps the canonical form. -/
theorem Memory.wf_settleRaces (as : List Nat) (n : Nat) {m : List Host.Cell} (h : Memory.wf m = true)
    (ha : ∀ a ∈ as, a < Config.memSpan) : Memory.wf (settleRaces as n m) = true := by
  induction as generalizing n m with
  | nil => exact h
  | cons a as ih =>
    exact ih (n + 1) (Memory.wf_write _ h (ha a (by simp))) fun b hb => ha b (by simp [hb])

/-- Settling a race leaves every byte that is not in it alone. -/
theorem Memory.read_settleRaces_of_not_mem (as : List Nat) (n : Nat) (m : List Host.Cell) {b : Nat} (hb : b ∉ as) :
    Memory.read (settleRaces as n m) b = Memory.read m b := by
  induction as generalizing n m with
  | nil => rfl
  | cons a as ih =>
    rw [List.mem_cons, not_or] at hb
    rw [settleRaces, ih _ _ hb.2, Memory.read_write_of_ne _ _ hb.1]

/-- The memory right after reset is in canonical form. -/
theorem Memory.wf_reset : Memory.wf State.reset.mem = true := rfl

end Sys2Proof.Machine
end

