-- ==== Sys2Proof/Laws/State.lean ====
section
/-! SUPPORT. One lemma per field per named update of State, so that no later proof unfolds a record update. -/

namespace Sys2Proof.Machine

/-- The block computed on the working state is the block function of the latches (R126, R127). -/
theorem State.blockOnWork_eq (s : State) (c : Word) : s.blockOnWork c = blockWords s.eng.key c s.eng.nonce := rfl

/-! `accept`. -/

@[simp] theorem State.accept_status (s : State) (e : Engine) (p : Phase) : (s.accept e p).status = s.status.accepted := rfl
@[simp] theorem State.accept_counter (s : State) (e : Engine) (p : Phase) : (s.accept e p).counter = s.counter := rfl
@[simp] theorem State.accept_winLen (s : State) (e : Engine) (p : Phase) : (s.accept e p).winLen = s.winLen := rfl
@[simp] theorem State.accept_bytesDone (s : State) (e : Engine) (p : Phase) : (s.accept e p).bytesDone = s.bytesDone := rfl
@[simp] theorem State.accept_blocks (s : State) (e : Engine) (p : Phase) : (s.accept e p).blocks = s.blocks := rfl
@[simp] theorem State.accept_key (s : State) (e : Engine) (p : Phase) : (s.accept e p).key = s.key := rfl
@[simp] theorem State.accept_nonce (s : State) (e : Engine) (p : Phase) : (s.accept e p).nonce = s.nonce := rfl
@[simp] theorem State.accept_bufBaseLo (s : State) (e : Engine) (p : Phase) : (s.accept e p).bufBaseLo = s.bufBaseLo := rfl
@[simp] theorem State.accept_bufBaseHi (s : State) (e : Engine) (p : Phase) : (s.accept e p).bufBaseHi = s.bufBaseHi := rfl
@[simp] theorem State.accept_bufSizeLo (s : State) (e : Engine) (p : Phase) : (s.accept e p).bufSizeLo = s.bufSizeLo := rfl
@[simp] theorem State.accept_bufSizeHi (s : State) (e : Engine) (p : Phase) : (s.accept e p).bufSizeHi = s.bufSizeHi := rfl
@[simp] theorem State.accept_ks (s : State) (e : Engine) (p : Phase) : (s.accept e p).ks = s.ks := rfl
@[simp] theorem State.accept_phase (s : State) (e : Engine) (p : Phase) : (s.accept e p).phase = p := rfl
@[simp] theorem State.accept_eng (s : State) (e : Engine) (p : Phase) : (s.accept e p).eng = e := rfl
@[simp] theorem State.accept_work (s : State) (e : Engine) (p : Phase) : (s.accept e p).work = s.work := rfl
@[simp] theorem State.accept_mem (s : State) (e : Engine) (p : Phase) : (s.accept e p).mem = s.mem := rfl
@[simp] theorem State.accept_devices (s : State) (e : Engine) (p : Phase) : (s.accept e p).devices = s.devices := rfl
@[simp] theorem State.accept_responses (s : State) (e : Engine) (p : Phase) : (s.accept e p).responses = s.responses := rfl
@[simp] theorem State.accept_host (s : State) (e : Engine) (p : Phase) : (s.accept e p).host = s.host := rfl
@[simp] theorem State.accept_slack (s : State) (e : Engine) (p : Phase) : (s.accept e p).slack = s.slack := rfl
@[simp] theorem State.accept_temps (s : State) (e : Engine) (p : Phase) : (s.accept e p).temps = s.temps := rfl
@[simp] theorem State.accept_raced (s : State) (e : Engine) (p : Phase) : (s.accept e p).raced = [] := rfl
@[simp] theorem State.accept_freeCtr (s : State) (e : Engine) (p : Phase) : (s.accept e p).freeCtr = s.freeCtr := rfl

/-! `dropCommand`. -/

@[simp] theorem State.dropCommand_status (s : State) : s.dropCommand.status = s.status.withDrop := rfl
@[simp] theorem State.dropCommand_counter (s : State) : s.dropCommand.counter = s.counter := rfl
@[simp] theorem State.dropCommand_winLen (s : State) : s.dropCommand.winLen = s.winLen := rfl
@[simp] theorem State.dropCommand_bytesDone (s : State) : s.dropCommand.bytesDone = s.bytesDone := rfl
@[simp] theorem State.dropCommand_blocks (s : State) : s.dropCommand.blocks = s.blocks := rfl
@[simp] theorem State.dropCommand_key (s : State) : s.dropCommand.key = s.key := rfl
@[simp] theorem State.dropCommand_nonce (s : State) : s.dropCommand.nonce = s.nonce := rfl
@[simp] theorem State.dropCommand_bufBaseLo (s : State) : s.dropCommand.bufBaseLo = s.bufBaseLo := rfl
@[simp] theorem State.dropCommand_bufBaseHi (s : State) : s.dropCommand.bufBaseHi = s.bufBaseHi := rfl
@[simp] theorem State.dropCommand_bufSizeLo (s : State) : s.dropCommand.bufSizeLo = s.bufSizeLo := rfl
@[simp] theorem State.dropCommand_bufSizeHi (s : State) : s.dropCommand.bufSizeHi = s.bufSizeHi := rfl
@[simp] theorem State.dropCommand_ks (s : State) : s.dropCommand.ks = s.ks := rfl
@[simp] theorem State.dropCommand_phase (s : State) : s.dropCommand.phase = s.phase := rfl
@[simp] theorem State.dropCommand_eng (s : State) : s.dropCommand.eng = s.eng := rfl
@[simp] theorem State.dropCommand_work (s : State) : s.dropCommand.work = s.work := rfl
@[simp] theorem State.dropCommand_mem (s : State) : s.dropCommand.mem = s.mem := rfl
@[simp] theorem State.dropCommand_devices (s : State) : s.dropCommand.devices = s.devices := rfl
@[simp] theorem State.dropCommand_responses (s : State) : s.dropCommand.responses = s.responses := rfl
@[simp] theorem State.dropCommand_host (s : State) : s.dropCommand.host = s.host := rfl
@[simp] theorem State.dropCommand_slack (s : State) : s.dropCommand.slack = s.slack := rfl
@[simp] theorem State.dropCommand_temps (s : State) : s.dropCommand.temps = s.temps := rfl
@[simp] theorem State.dropCommand_raced (s : State) : s.dropCommand.raced = s.raced := rfl
@[simp] theorem State.dropCommand_freeCtr (s : State) : s.dropCommand.freeCtr = s.freeCtr := rfl

/-! `raise`. -/

@[simp] theorem State.raise_status (s : State) (c : OutcomeCode) (w d b : Word) : (s.raise c w d b).status = s.status := rfl
@[simp] theorem State.raise_counter (s : State) (c : OutcomeCode) (w d b : Word) : (s.raise c w d b).counter = s.counter := rfl
@[simp] theorem State.raise_winLen (s : State) (c : OutcomeCode) (w d b : Word) : (s.raise c w d b).winLen = s.winLen := rfl
@[simp] theorem State.raise_bytesDone (s : State) (c : OutcomeCode) (w d b : Word) : (s.raise c w d b).bytesDone = s.bytesDone := rfl
@[simp] theorem State.raise_blocks (s : State) (c : OutcomeCode) (w d b : Word) : (s.raise c w d b).blocks = s.blocks := rfl
@[simp] theorem State.raise_key (s : State) (c : OutcomeCode) (w d b : Word) : (s.raise c w d b).key = s.key := rfl
@[simp] theorem State.raise_nonce (s : State) (c : OutcomeCode) (w d b : Word) : (s.raise c w d b).nonce = s.nonce := rfl
@[simp] theorem State.raise_bufBaseLo (s : State) (c : OutcomeCode) (w d b : Word) : (s.raise c w d b).bufBaseLo = s.bufBaseLo := rfl
@[simp] theorem State.raise_bufBaseHi (s : State) (c : OutcomeCode) (w d b : Word) : (s.raise c w d b).bufBaseHi = s.bufBaseHi := rfl
@[simp] theorem State.raise_bufSizeLo (s : State) (c : OutcomeCode) (w d b : Word) : (s.raise c w d b).bufSizeLo = s.bufSizeLo := rfl
@[simp] theorem State.raise_bufSizeHi (s : State) (c : OutcomeCode) (w d b : Word) : (s.raise c w d b).bufSizeHi = s.bufSizeHi := rfl
@[simp] theorem State.raise_ks (s : State) (c : OutcomeCode) (w d b : Word) : (s.raise c w d b).ks = s.ks := rfl
@[simp] theorem State.raise_phase (s : State) (c : OutcomeCode) (w d b : Word) : (s.raise c w d b).phase = .finish := rfl
@[simp] theorem State.raise_work (s : State) (c : OutcomeCode) (w d b : Word) : (s.raise c w d b).work = s.work := rfl
@[simp] theorem State.raise_mem (s : State) (c : OutcomeCode) (w d b : Word) : (s.raise c w d b).mem = s.mem := rfl
@[simp] theorem State.raise_devices (s : State) (c : OutcomeCode) (w d b : Word) : (s.raise c w d b).devices = s.devices := rfl
@[simp] theorem State.raise_responses (s : State) (c : OutcomeCode) (w d b : Word) : (s.raise c w d b).responses = s.responses := rfl
@[simp] theorem State.raise_host (s : State) (c : OutcomeCode) (w d b : Word) : (s.raise c w d b).host = s.host := rfl
@[simp] theorem State.raise_slack (s : State) (c : OutcomeCode) (w d b : Word) : (s.raise c w d b).slack = s.slack := rfl
@[simp] theorem State.raise_temps (s : State) (c : OutcomeCode) (w d b : Word) : (s.raise c w d b).temps = s.temps := rfl
@[simp] theorem State.raise_raced (s : State) (c : OutcomeCode) (w d b : Word) : (s.raise c w d b).raced = s.raced := rfl
@[simp] theorem State.raise_freeCtr (s : State) (c : OutcomeCode) (w d b : Word) : (s.raise c w d b).freeCtr = s.freeCtr := rfl
@[simp] theorem State.raise_eng_op (s : State) (c : OutcomeCode) (w d b : Word) : (s.raise c w d b).eng.op = s.eng.op := rfl
@[simp] theorem State.raise_eng_key (s : State) (c : OutcomeCode) (w d b : Word) : (s.raise c w d b).eng.key = s.eng.key := rfl
@[simp] theorem State.raise_eng_nonce (s : State) (c : OutcomeCode) (w d b : Word) : (s.raise c w d b).eng.nonce = s.eng.nonce := rfl
@[simp] theorem State.raise_eng_counter (s : State) (c : OutcomeCode) (w d b : Word) : (s.raise c w d b).eng.counter = s.eng.counter := rfl
@[simp] theorem State.raise_eng_base (s : State) (c : OutcomeCode) (w d b : Word) : (s.raise c w d b).eng.base = s.eng.base := rfl
@[simp] theorem State.raise_eng_size (s : State) (c : OutcomeCode) (w d b : Word) : (s.raise c w d b).eng.size = s.eng.size := rfl
@[simp] theorem State.raise_eng_mark (s : State) (c : OutcomeCode) (w d b : Word) : (s.raise c w d b).eng.mark = s.eng.mark := rfl
@[simp] theorem State.raise_eng_markCount (s : State) (c : OutcomeCode) (w d b : Word) : (s.raise c w d b).eng.markCount = s.eng.markCount := rfl
@[simp] theorem State.raise_eng_ctr (s : State) (c : OutcomeCode) (w d b : Word) : (s.raise c w d b).eng.ctr = s.eng.ctr := rfl
@[simp] theorem State.raise_eng_win (s : State) (c : OutcomeCode) (w d b : Word) : (s.raise c w d b).eng.win = s.eng.win := rfl
@[simp] theorem State.raise_eng_off (s : State) (c : OutcomeCode) (w d b : Word) : (s.raise c w d b).eng.off = s.eng.off := rfl
@[simp] theorem State.raise_eng_kbuf (s : State) (c : OutcomeCode) (w d b : Word) : (s.raise c w d b).eng.kbuf = s.eng.kbuf := rfl
@[simp] theorem State.raise_eng_rbyte (s : State) (c : OutcomeCode) (w d b : Word) : (s.raise c w d b).eng.rbyte = s.eng.rbyte := rfl
@[simp] theorem State.raise_res_outcome (s : State) (c : OutcomeCode) (w d b : Word) : (s.raise c w d b).eng.res.outcome = c := rfl
@[simp] theorem State.raise_res_winLen (s : State) (c : OutcomeCode) (w d b : Word) : (s.raise c w d b).eng.res.winLen = w := rfl
@[simp] theorem State.raise_res_bytesDone (s : State) (c : OutcomeCode) (w d b : Word) : (s.raise c w d b).eng.res.bytesDone = d := rfl
@[simp] theorem State.raise_res_blocks (s : State) (c : OutcomeCode) (w d b : Word) : (s.raise c w d b).eng.res.blocks = b := rfl
@[simp] theorem State.raise_res_ks (s : State) (c : OutcomeCode) (w d b : Word) : (s.raise c w d b).eng.res.ks = s.eng.res.ks := rfl

/-! `stored`. -/

@[simp] theorem State.stored_status (s : State) (a : Nat) (v : Byte) : (s.stored a v).status = s.status := rfl
@[simp] theorem State.stored_counter (s : State) (a : Nat) (v : Byte) : (s.stored a v).counter = s.counter := rfl
@[simp] theorem State.stored_winLen (s : State) (a : Nat) (v : Byte) : (s.stored a v).winLen = s.winLen := rfl
@[simp] theorem State.stored_bytesDone (s : State) (a : Nat) (v : Byte) : (s.stored a v).bytesDone = s.bytesDone := rfl
@[simp] theorem State.stored_blocks (s : State) (a : Nat) (v : Byte) : (s.stored a v).blocks = s.blocks := rfl
@[simp] theorem State.stored_key (s : State) (a : Nat) (v : Byte) : (s.stored a v).key = s.key := rfl
@[simp] theorem State.stored_nonce (s : State) (a : Nat) (v : Byte) : (s.stored a v).nonce = s.nonce := rfl
@[simp] theorem State.stored_bufBaseLo (s : State) (a : Nat) (v : Byte) : (s.stored a v).bufBaseLo = s.bufBaseLo := rfl
@[simp] theorem State.stored_bufBaseHi (s : State) (a : Nat) (v : Byte) : (s.stored a v).bufBaseHi = s.bufBaseHi := rfl
@[simp] theorem State.stored_bufSizeLo (s : State) (a : Nat) (v : Byte) : (s.stored a v).bufSizeLo = s.bufSizeLo := rfl
@[simp] theorem State.stored_bufSizeHi (s : State) (a : Nat) (v : Byte) : (s.stored a v).bufSizeHi = s.bufSizeHi := rfl
@[simp] theorem State.stored_ks (s : State) (a : Nat) (v : Byte) : (s.stored a v).ks = s.ks := rfl
@[simp] theorem State.stored_phase (s : State) (a : Nat) (v : Byte) : (s.stored a v).phase = s.phase := rfl
@[simp] theorem State.stored_eng (s : State) (a : Nat) (v : Byte) : (s.stored a v).eng = s.eng := rfl
@[simp] theorem State.stored_work (s : State) (a : Nat) (v : Byte) : (s.stored a v).work = s.work := rfl
@[simp] theorem State.stored_mem (s : State) (a : Nat) (v : Byte) : (s.stored a v).mem = Memory.write s.mem a v := rfl
@[simp] theorem State.stored_devices (s : State) (a : Nat) (v : Byte) : (s.stored a v).devices = s.devices := rfl
@[simp] theorem State.stored_responses (s : State) (a : Nat) (v : Byte) : (s.stored a v).responses = s.responses := rfl
@[simp] theorem State.stored_host (s : State) (a : Nat) (v : Byte) : (s.stored a v).host = s.host := rfl
@[simp] theorem State.stored_slack (s : State) (a : Nat) (v : Byte) : (s.stored a v).slack = s.slack := rfl
@[simp] theorem State.stored_temps (s : State) (a : Nat) (v : Byte) : (s.stored a v).temps = s.temps := rfl
@[simp] theorem State.stored_raced (s : State) (a : Nat) (v : Byte) : (s.stored a v).raced = s.raced := rfl
@[simp] theorem State.stored_freeCtr (s : State) (a : Nat) (v : Byte) : (s.stored a v).freeCtr = s.freeCtr := rfl

/-! `storeFailed`. -/

@[simp] theorem State.storeFailed_status (s : State) (a : Nat) : (s.storeFailed a).status = s.status := rfl
@[simp] theorem State.storeFailed_counter (s : State) (a : Nat) : (s.storeFailed a).counter = s.counter := rfl
@[simp] theorem State.storeFailed_winLen (s : State) (a : Nat) : (s.storeFailed a).winLen = s.winLen := rfl
@[simp] theorem State.storeFailed_bytesDone (s : State) (a : Nat) : (s.storeFailed a).bytesDone = s.bytesDone := rfl
@[simp] theorem State.storeFailed_blocks (s : State) (a : Nat) : (s.storeFailed a).blocks = s.blocks := rfl
@[simp] theorem State.storeFailed_key (s : State) (a : Nat) : (s.storeFailed a).key = s.key := rfl
@[simp] theorem State.storeFailed_nonce (s : State) (a : Nat) : (s.storeFailed a).nonce = s.nonce := rfl
@[simp] theorem State.storeFailed_bufBaseLo (s : State) (a : Nat) : (s.storeFailed a).bufBaseLo = s.bufBaseLo := rfl
@[simp] theorem State.storeFailed_bufBaseHi (s : State) (a : Nat) : (s.storeFailed a).bufBaseHi = s.bufBaseHi := rfl
@[simp] theorem State.storeFailed_bufSizeLo (s : State) (a : Nat) : (s.storeFailed a).bufSizeLo = s.bufSizeLo := rfl
@[simp] theorem State.storeFailed_bufSizeHi (s : State) (a : Nat) : (s.storeFailed a).bufSizeHi = s.bufSizeHi := rfl
@[simp] theorem State.storeFailed_ks (s : State) (a : Nat) : (s.storeFailed a).ks = s.ks := rfl
@[simp] theorem State.storeFailed_phase (s : State) (a : Nat) : (s.storeFailed a).phase = s.phase := rfl
@[simp] theorem State.storeFailed_eng (s : State) (a : Nat) : (s.storeFailed a).eng = s.eng := rfl
@[simp] theorem State.storeFailed_work (s : State) (a : Nat) : (s.storeFailed a).work = s.work := rfl
@[simp] theorem State.storeFailed_mem (s : State) (a : Nat) :
    (s.storeFailed a).mem = Memory.write s.mem a (Config.freeByte s.freeCtr) := rfl
@[simp] theorem State.storeFailed_devices (s : State) (a : Nat) : (s.storeFailed a).devices = s.devices := rfl
@[simp] theorem State.storeFailed_responses (s : State) (a : Nat) : (s.storeFailed a).responses = s.responses := rfl
@[simp] theorem State.storeFailed_host (s : State) (a : Nat) : (s.storeFailed a).host = s.host := rfl
@[simp] theorem State.storeFailed_slack (s : State) (a : Nat) : (s.storeFailed a).slack = s.slack := rfl
@[simp] theorem State.storeFailed_temps (s : State) (a : Nat) : (s.storeFailed a).temps = s.temps := rfl
@[simp] theorem State.storeFailed_raced (s : State) (a : Nat) : (s.storeFailed a).raced = s.raced := rfl
@[simp] theorem State.storeFailed_freeCtr (s : State) (a : Nat) : (s.storeFailed a).freeCtr = s.freeCtr + 1 := rfl

/-! `releaseWork`. -/

@[simp] theorem State.releaseWork_status (s : State) : s.releaseWork.status = s.status := rfl
@[simp] theorem State.releaseWork_counter (s : State) : s.releaseWork.counter = s.counter := rfl
@[simp] theorem State.releaseWork_winLen (s : State) : s.releaseWork.winLen = s.winLen := rfl
@[simp] theorem State.releaseWork_bytesDone (s : State) : s.releaseWork.bytesDone = s.bytesDone := rfl
@[simp] theorem State.releaseWork_blocks (s : State) : s.releaseWork.blocks = s.blocks := rfl
@[simp] theorem State.releaseWork_key (s : State) : s.releaseWork.key = s.key := rfl
@[simp] theorem State.releaseWork_nonce (s : State) : s.releaseWork.nonce = s.nonce := rfl
@[simp] theorem State.releaseWork_bufBaseLo (s : State) : s.releaseWork.bufBaseLo = s.bufBaseLo := rfl
@[simp] theorem State.releaseWork_bufBaseHi (s : State) : s.releaseWork.bufBaseHi = s.bufBaseHi := rfl
@[simp] theorem State.releaseWork_bufSizeLo (s : State) : s.releaseWork.bufSizeLo = s.bufSizeLo := rfl
@[simp] theorem State.releaseWork_bufSizeHi (s : State) : s.releaseWork.bufSizeHi = s.bufSizeHi := rfl
@[simp] theorem State.releaseWork_ks (s : State) : s.releaseWork.ks = s.ks := rfl
@[simp] theorem State.releaseWork_phase (s : State) : s.releaseWork.phase = s.phase := rfl
@[simp] theorem State.releaseWork_eng (s : State) : s.releaseWork.eng = s.eng := rfl
@[simp] theorem State.releaseWork_work (s : State) : s.releaseWork.work = Config.freeWork s.freeCtr := rfl
@[simp] theorem State.releaseWork_mem (s : State) : s.releaseWork.mem = s.mem := rfl
@[simp] theorem State.releaseWork_devices (s : State) : s.releaseWork.devices = s.devices := rfl
@[simp] theorem State.releaseWork_responses (s : State) : s.releaseWork.responses = s.responses := rfl
@[simp] theorem State.releaseWork_host (s : State) : s.releaseWork.host = s.host := rfl
@[simp] theorem State.releaseWork_slack (s : State) : s.releaseWork.slack = s.slack := rfl
@[simp] theorem State.releaseWork_temps (s : State) : s.releaseWork.temps = s.temps := rfl
@[simp] theorem State.releaseWork_raced (s : State) : s.releaseWork.raced = s.raced := rfl
@[simp] theorem State.releaseWork_freeCtr (s : State) : s.releaseWork.freeCtr = s.freeCtr + 1 := rfl

/-! `setTemp`. -/

@[simp] theorem State.setTemp_status (s : State) (t : Nat) (v : Word) : (s.setTemp t v).status = s.status := rfl
@[simp] theorem State.setTemp_counter (s : State) (t : Nat) (v : Word) : (s.setTemp t v).counter = s.counter := rfl
@[simp] theorem State.setTemp_winLen (s : State) (t : Nat) (v : Word) : (s.setTemp t v).winLen = s.winLen := rfl
@[simp] theorem State.setTemp_bytesDone (s : State) (t : Nat) (v : Word) : (s.setTemp t v).bytesDone = s.bytesDone := rfl
@[simp] theorem State.setTemp_blocks (s : State) (t : Nat) (v : Word) : (s.setTemp t v).blocks = s.blocks := rfl
@[simp] theorem State.setTemp_key (s : State) (t : Nat) (v : Word) : (s.setTemp t v).key = s.key := rfl
@[simp] theorem State.setTemp_nonce (s : State) (t : Nat) (v : Word) : (s.setTemp t v).nonce = s.nonce := rfl
@[simp] theorem State.setTemp_bufBaseLo (s : State) (t : Nat) (v : Word) : (s.setTemp t v).bufBaseLo = s.bufBaseLo := rfl
@[simp] theorem State.setTemp_bufBaseHi (s : State) (t : Nat) (v : Word) : (s.setTemp t v).bufBaseHi = s.bufBaseHi := rfl
@[simp] theorem State.setTemp_bufSizeLo (s : State) (t : Nat) (v : Word) : (s.setTemp t v).bufSizeLo = s.bufSizeLo := rfl
@[simp] theorem State.setTemp_bufSizeHi (s : State) (t : Nat) (v : Word) : (s.setTemp t v).bufSizeHi = s.bufSizeHi := rfl
@[simp] theorem State.setTemp_ks (s : State) (t : Nat) (v : Word) : (s.setTemp t v).ks = s.ks := rfl
@[simp] theorem State.setTemp_phase (s : State) (t : Nat) (v : Word) : (s.setTemp t v).phase = s.phase := rfl
@[simp] theorem State.setTemp_eng (s : State) (t : Nat) (v : Word) : (s.setTemp t v).eng = s.eng := rfl
@[simp] theorem State.setTemp_work (s : State) (t : Nat) (v : Word) : (s.setTemp t v).work = s.work := rfl
@[simp] theorem State.setTemp_mem (s : State) (t : Nat) (v : Word) : (s.setTemp t v).mem = s.mem := rfl
@[simp] theorem State.setTemp_devices (s : State) (t : Nat) (v : Word) : (s.setTemp t v).devices = s.devices := rfl
@[simp] theorem State.setTemp_responses (s : State) (t : Nat) (v : Word) : (s.setTemp t v).responses = s.responses := rfl
@[simp] theorem State.setTemp_host (s : State) (t : Nat) (v : Word) : (s.setTemp t v).host = s.host := rfl
@[simp] theorem State.setTemp_slack (s : State) (t : Nat) (v : Word) : (s.setTemp t v).slack = s.slack := rfl
@[simp] theorem State.setTemp_temps (s : State) (t : Nat) (v : Word) :
    (s.setTemp t v).temps = cellsWrite 0 s.temps t v := rfl
@[simp] theorem State.setTemp_raced (s : State) (t : Nat) (v : Word) : (s.setTemp t v).raced = s.raced := rfl
@[simp] theorem State.setTemp_freeCtr (s : State) (t : Nat) (v : Word) : (s.setTemp t v).freeCtr = s.freeCtr := rfl

/-! `fillKbuf`. -/

@[simp] theorem State.fillKbuf_status (s : State) : s.fillKbuf.status = s.status := by simp only [State.fillKbuf, State.releaseWork]
@[simp] theorem State.fillKbuf_counter (s : State) : s.fillKbuf.counter = s.counter := by simp only [State.fillKbuf, State.releaseWork]
@[simp] theorem State.fillKbuf_winLen (s : State) : s.fillKbuf.winLen = s.winLen := by simp only [State.fillKbuf, State.releaseWork]
@[simp] theorem State.fillKbuf_bytesDone (s : State) : s.fillKbuf.bytesDone = s.bytesDone := by simp only [State.fillKbuf, State.releaseWork]
@[simp] theorem State.fillKbuf_blocks (s : State) : s.fillKbuf.blocks = s.blocks := by simp only [State.fillKbuf, State.releaseWork]
@[simp] theorem State.fillKbuf_key (s : State) : s.fillKbuf.key = s.key := by simp only [State.fillKbuf, State.releaseWork]
@[simp] theorem State.fillKbuf_nonce (s : State) : s.fillKbuf.nonce = s.nonce := by simp only [State.fillKbuf, State.releaseWork]
@[simp] theorem State.fillKbuf_bufBaseLo (s : State) : s.fillKbuf.bufBaseLo = s.bufBaseLo := by simp only [State.fillKbuf, State.releaseWork]
@[simp] theorem State.fillKbuf_bufBaseHi (s : State) : s.fillKbuf.bufBaseHi = s.bufBaseHi := by simp only [State.fillKbuf, State.releaseWork]
@[simp] theorem State.fillKbuf_bufSizeLo (s : State) : s.fillKbuf.bufSizeLo = s.bufSizeLo := by simp only [State.fillKbuf, State.releaseWork]
@[simp] theorem State.fillKbuf_bufSizeHi (s : State) : s.fillKbuf.bufSizeHi = s.bufSizeHi := by simp only [State.fillKbuf, State.releaseWork]
@[simp] theorem State.fillKbuf_ks (s : State) : s.fillKbuf.ks = s.ks := by simp only [State.fillKbuf, State.releaseWork]
@[simp] theorem State.fillKbuf_phase (s : State) : s.fillKbuf.phase = s.phase := by simp only [State.fillKbuf, State.releaseWork]
@[simp] theorem State.fillKbuf_eng (s : State) :
    s.fillKbuf.eng = { s.eng with kbuf := keystream s.eng.key s.eng.ctr s.eng.nonce } := by simp only [State.fillKbuf, State.releaseWork, State.blockOnWork_eq, keystream]
@[simp] theorem State.fillKbuf_work (s : State) : s.fillKbuf.work = Config.freeWork s.freeCtr := by simp only [State.fillKbuf, State.releaseWork]
@[simp] theorem State.fillKbuf_mem (s : State) : s.fillKbuf.mem = s.mem := by simp only [State.fillKbuf, State.releaseWork]
@[simp] theorem State.fillKbuf_devices (s : State) : s.fillKbuf.devices = s.devices := by simp only [State.fillKbuf, State.releaseWork]
@[simp] theorem State.fillKbuf_responses (s : State) : s.fillKbuf.responses = s.responses := by simp only [State.fillKbuf, State.releaseWork]
@[simp] theorem State.fillKbuf_host (s : State) : s.fillKbuf.host = s.host := by simp only [State.fillKbuf, State.releaseWork]
@[simp] theorem State.fillKbuf_slack (s : State) : s.fillKbuf.slack = s.slack := by simp only [State.fillKbuf, State.releaseWork]
@[simp] theorem State.fillKbuf_temps (s : State) : s.fillKbuf.temps = s.temps := by simp only [State.fillKbuf, State.releaseWork]
@[simp] theorem State.fillKbuf_raced (s : State) : s.fillKbuf.raced = s.raced := by simp only [State.fillKbuf, State.releaseWork]
@[simp] theorem State.fillKbuf_freeCtr (s : State) : s.fillKbuf.freeCtr = s.freeCtr + 1 := by simp only [State.fillKbuf, State.releaseWork]

/-! `stepGRun`. -/

@[simp] theorem State.stepGRun_status (s : State) : s.stepGRun.status = s.status := by simp only [State.stepGRun, State.releaseWork]
@[simp] theorem State.stepGRun_counter (s : State) : s.stepGRun.counter = s.counter := by simp only [State.stepGRun, State.releaseWork]
@[simp] theorem State.stepGRun_winLen (s : State) : s.stepGRun.winLen = s.winLen := by simp only [State.stepGRun, State.releaseWork]
@[simp] theorem State.stepGRun_bytesDone (s : State) : s.stepGRun.bytesDone = s.bytesDone := by simp only [State.stepGRun, State.releaseWork]
@[simp] theorem State.stepGRun_blocks (s : State) : s.stepGRun.blocks = s.blocks := by simp only [State.stepGRun, State.releaseWork]
@[simp] theorem State.stepGRun_key (s : State) : s.stepGRun.key = s.key := by simp only [State.stepGRun, State.releaseWork]
@[simp] theorem State.stepGRun_nonce (s : State) : s.stepGRun.nonce = s.nonce := by simp only [State.stepGRun, State.releaseWork]
@[simp] theorem State.stepGRun_bufBaseLo (s : State) : s.stepGRun.bufBaseLo = s.bufBaseLo := by simp only [State.stepGRun, State.releaseWork]
@[simp] theorem State.stepGRun_bufBaseHi (s : State) : s.stepGRun.bufBaseHi = s.bufBaseHi := by simp only [State.stepGRun, State.releaseWork]
@[simp] theorem State.stepGRun_bufSizeLo (s : State) : s.stepGRun.bufSizeLo = s.bufSizeLo := by simp only [State.stepGRun, State.releaseWork]
@[simp] theorem State.stepGRun_bufSizeHi (s : State) : s.stepGRun.bufSizeHi = s.bufSizeHi := by simp only [State.stepGRun, State.releaseWork]
@[simp] theorem State.stepGRun_ks (s : State) : s.stepGRun.ks = s.ks := by simp only [State.stepGRun, State.releaseWork]
@[simp] theorem State.stepGRun_phase (s : State) : s.stepGRun.phase = .finish := by simp only [State.stepGRun, State.releaseWork]
@[simp] theorem State.stepGRun_eng (s : State) :
    s.stepGRun.eng = { s.eng with
        res := { outcome := .ok, winLen := 0, bytesDone := 0, blocks := 1, ks := blockWords s.eng.key s.eng.counter s.eng.nonce } } := by simp only [State.stepGRun, State.releaseWork, State.blockOnWork_eq]
@[simp] theorem State.stepGRun_work (s : State) : s.stepGRun.work = Config.freeWork s.freeCtr := by simp only [State.stepGRun, State.releaseWork]
@[simp] theorem State.stepGRun_mem (s : State) : s.stepGRun.mem = s.mem := by simp only [State.stepGRun, State.releaseWork]
@[simp] theorem State.stepGRun_devices (s : State) : s.stepGRun.devices = s.devices := by simp only [State.stepGRun, State.releaseWork]
@[simp] theorem State.stepGRun_responses (s : State) : s.stepGRun.responses = s.responses := by simp only [State.stepGRun, State.releaseWork]
@[simp] theorem State.stepGRun_host (s : State) : s.stepGRun.host = s.host := by simp only [State.stepGRun, State.releaseWork]
@[simp] theorem State.stepGRun_slack (s : State) : s.stepGRun.slack = s.slack := by simp only [State.stepGRun, State.releaseWork]
@[simp] theorem State.stepGRun_temps (s : State) : s.stepGRun.temps = s.temps := by simp only [State.stepGRun, State.releaseWork]
@[simp] theorem State.stepGRun_raced (s : State) : s.stepGRun.raced = s.raced := by simp only [State.stepGRun, State.releaseWork]
@[simp] theorem State.stepGRun_freeCtr (s : State) : s.stepGRun.freeCtr = s.freeCtr + 1 := by simp only [State.stepGRun, State.releaseWork]

/-! `finish`. -/

@[simp] theorem State.finish_status (s : State) : s.finish.status = s.status.completed s.eng.res.outcome := rfl
@[simp] theorem State.finish_counter (s : State) : s.finish.counter = s.counter := rfl
@[simp] theorem State.finish_winLen (s : State) : s.finish.winLen = s.eng.res.winLen := rfl
@[simp] theorem State.finish_bytesDone (s : State) : s.finish.bytesDone = s.eng.res.bytesDone := rfl
@[simp] theorem State.finish_blocks (s : State) : s.finish.blocks = s.eng.res.blocks := rfl
@[simp] theorem State.finish_key (s : State) : s.finish.key = s.key := rfl
@[simp] theorem State.finish_nonce (s : State) : s.finish.nonce = s.nonce := rfl
@[simp] theorem State.finish_bufBaseLo (s : State) : s.finish.bufBaseLo = s.bufBaseLo := rfl
@[simp] theorem State.finish_bufBaseHi (s : State) : s.finish.bufBaseHi = s.bufBaseHi := rfl
@[simp] theorem State.finish_bufSizeLo (s : State) : s.finish.bufSizeLo = s.bufSizeLo := rfl
@[simp] theorem State.finish_bufSizeHi (s : State) : s.finish.bufSizeHi = s.bufSizeHi := rfl
@[simp] theorem State.finish_ks (s : State) :
    s.finish.ks = if writesKs s.eng.op s.eng.res.outcome then s.eng.res.ks else s.ks := rfl
@[simp] theorem State.finish_phase (s : State) : s.finish.phase = .idle := rfl
@[simp] theorem State.finish_eng (s : State) :
    s.finish.eng = Config.freeEngine (s.freeCtr + s.raced.length) := rfl
@[simp] theorem State.finish_work (s : State) : s.finish.work = s.work := rfl
@[simp] theorem State.finish_mem (s : State) : s.finish.mem = settleRaces s.raced s.freeCtr s.mem := rfl
@[simp] theorem State.finish_devices (s : State) : s.finish.devices = s.devices := rfl
@[simp] theorem State.finish_responses (s : State) : s.finish.responses = s.responses := rfl
@[simp] theorem State.finish_host (s : State) : s.finish.host = s.host := rfl
@[simp] theorem State.finish_slack (s : State) : s.finish.slack = s.slack := rfl
@[simp] theorem State.finish_temps (s : State) : s.finish.temps = s.temps := rfl
@[simp] theorem State.finish_raced (s : State) : s.finish.raced = [] := rfl
@[simp] theorem State.finish_freeCtr (s : State) : s.finish.freeCtr = s.freeCtr + s.raced.length + 1 := rfl

end Sys2Proof.Machine
end

