-- ==== Sys2Proof/Laws/Engine.lean ====
section
/-! SUPPORT. What a transaction and a run of the engine can do: one lemma per shared operation. -/

namespace Sys2Proof.Machine

@[simp] theorem andThen_next (s : State) (f : State → Result) : andThen (.next s) f = f s := rfl
@[simp] theorem andThen_fault (r : Fault) (f : State → Result) : andThen (.fault r) f = .fault r := rfl
@[simp] theorem andThen_refused (r : Refusal) (f : State → Result) : andThen (.refused r) f = .refused r := rfl

theorem andThen_assoc (o : Result) (f g : State → Result) : andThen (andThen o f) g = andThen o fun s => andThen (f s) g := by
  cases o <;> rfl

theorem andThen_next_right (o : Result) : andThen o .next = o := by cases o <;> rfl

/-- If going on answers a next state, the first part did. -/
theorem andThen_eq_next {o : Result} {f : State → Result} {t : State} (h : andThen o f = .next t) :
    ∃ s, o = .next s ∧ f s = .next t := by
  cases o with
  | next s => exact ⟨s, rfl, h⟩
  | fault r => cases h
  | refused r => cases h

/-! Runs of the engine. -/

@[simp] theorem runEngine_zero (s : State) : runEngine 0 s = .next s := rfl

theorem runEngine_idle (n : Nat) {s : State} (h : s.phase = .idle) : runEngine n s = .next s := by
  cases n with
  | zero => rfl
  | succ n => simp [runEngine, h]

theorem engineStep_idle {s : State} (h : s.phase = .idle) : engineStep s = .next s := by simp [engineStep, h]

/-- One transition and then the rest, whatever the phase. -/
theorem runEngine_succ (n : Nat) (s : State) : runEngine (n + 1) s = andThen (engineStep s) (runEngine n) := by
  by_cases h : s.phase = .idle
  · simp [engineStep_idle h, runEngine_idle _ h]
  · rw [runEngine]
    split
    · next hp => exact absurd hp h
    all_goals rfl

theorem runEngine_add (m n : Nat) (s : State) : runEngine (m + n) s = andThen (runEngine m s) (runEngine n) := by
  induction m generalizing s with
  | zero => simp
  | succ m ih =>
    rw [Nat.succ_add, runEngine_succ, runEngine_succ, andThen_assoc]
    cases engineStep s with
    | next t => simpa using ih t
    | fault r => rfl
    | refused r => rfl

/-- A run that has come to IDLE stays there. -/
theorem runEngine_of_le {m n : Nat} {s t : State} (h : runEngine m s = .next t) (ht : t.phase = .idle) (hle : m ≤ n) :
    runEngine n s = .next t := by
  obtain ⟨k, rfl⟩ := Nat.exists_eq_add_of_le hle
  rw [runEngine_add, h, andThen_next, runEngine_idle k ht]

/-- A property that every engine step keeps, a run of the engine keeps. -/
theorem runEngine_keeps {P : State → Prop} (hstep : ∀ s t, P s → engineStep s = .next t → P t) (n : Nat) {s t : State}
    (hs : P s) (h : runEngine n s = .next t) : P t := by
  induction n generalizing s with
  | zero => cases h; exact hs
  | succ n ih =>
    rw [runEngine_succ] at h
    obtain ⟨u, hu, h⟩ := andThen_eq_next h
    exact ih (hstep s u hs hu) h

/-! Transactions. -/

/-- Everything a transaction that answers a next state can have done. -/
theorem transact_cases {s t : State} {a : Nat} {onOk onErr : State → Result} (h : transact s a onOk onErr = .next t) :
    a < Config.memSpan ∧ s.isDevice a = false ∧
      ((s.responses = [] ∧ onOk s = .next t) ∨
       (∃ rs, s.responses = .ok :: rs ∧ onOk { s with responses := rs } = .next t) ∨
       (∃ rs, s.responses = .busErr :: rs ∧ onErr { s with responses := rs } = .next t) ∨
       (∃ rs, s.responses = .never :: rs ∧ t = s)) := by
  unfold transact at h
  split at h
  · cases h
  · next ha =>
    split at h
    · cases h
    · next hd =>
      refine ⟨by omega, by simpa using hd, ?_⟩
      split at h
      · next hr => exact .inl ⟨hr, h⟩
      · next rs hr => exact .inr (.inl ⟨rs, hr, h⟩)
      · next rs hr => exact .inr (.inr (.inl ⟨rs, hr, h⟩))
      · next rs hr => exact .inr (.inr (.inr ⟨rs, hr, by cases h; rfl⟩))

/-- A transaction in ordinary memory that is answered OK. -/
theorem transact_ok {s : State} {a : Nat} {onOk onErr : State → Result} (ha : a < Config.memSpan)
    (hd : s.isDevice a = false) (hr : ∀ r ∈ s.responses.head?, r = .ok) :
    transact s a onOk onErr = onOk { s with responses := s.responses.tail } := by
  unfold transact
  rw [if_neg (by omega), if_neg (by simp [hd])]
  split
  · next h =>
    have : { s with responses := s.responses.tail } = s := by cases s; simp_all
    rw [this]
  · next rs h => simp [h]
  · next rs h => simp [h] at hr
  · next rs h => simp [h] at hr

/-- A transaction in ordinary memory that is answered BUSERR. -/
theorem transact_busErr {s : State} {a : Nat} {onOk onErr : State → Result} {rs : List Response} (ha : a < Config.memSpan)
    (hd : s.isDevice a = false) (hr : s.responses = .busErr :: rs) :
    transact s a onOk onErr = onErr { s with responses := rs } := by
  unfold transact
  rw [if_neg (by omega), if_neg (by simp [hd]), hr]

/-- A transaction in ordinary memory that is never answered (R251). -/
theorem transact_never {s : State} {a : Nat} {onOk onErr : State → Result} {rs : List Response} (ha : a < Config.memSpan)
    (hd : s.isDevice a = false) (hr : s.responses = .never :: rs) : transact s a onOk onErr = .next s := by
  unfold transact
  rw [if_neg (by omega), if_neg (by simp [hd]), hr]

@[simp] theorem portByte_of_not_raced {s : State} {a : Nat} (h : a ∉ s.raced) : s.portByte a = s.readByte a := by
  simp [State.portByte, h]

@[simp] theorem afterPortRead_of_not_raced {s : State} {a : Nat} (h : a ∉ s.raced) : s.afterPortRead a = s := by
  simp [State.afterPortRead, h]

/-- A read may only advance the free-value counter. -/
theorem afterPortRead_eq (s : State) (a : Nat) : ∃ n, s.afterPortRead a = { s with freeCtr := n } := by
  unfold State.afterPortRead
  split
  · exact ⟨_, rfl⟩
  · exact ⟨s.freeCtr, rfl⟩

@[simp] theorem readByte_stored_self (s : State) (a : Nat) (v : Byte) : (s.stored a v).readByte a = v := by
  simp [State.readByte]

theorem readByte_stored_of_ne (s : State) {a b : Nat} (v : Byte) (h : b ≠ a) : (s.stored a v).readByte b = s.readByte b := by
  simp [State.readByte, Memory.read_write_of_ne, h]

theorem readByte_storeFailed_of_ne (s : State) {a b : Nat} (h : b ≠ a) : (s.storeFailed a).readByte b = s.readByte b := by
  simp [State.readByte, Memory.read_write_of_ne, h]

end Sys2Proof.Machine
end

