-- ==== Sys2Proof/Laws/HeaderMask.lean ====
section
/-! SUPPORT. What each engine step of R168 does, in the phase that takes it and for each answer of the memory. -/

namespace Sys2Proof.Machine

/-! The engine step of each phase. -/

theorem engineStep_gRun {s : State} (h : s.phase = .gRun) : engineStep s = .next s.stepGRun := by simp [engineStep, h]
theorem engineStep_mCheck {s : State} (h : s.phase = .mCheck) : engineStep s = .next s.stepMCheck := by simp [engineStep, h]
theorem engineStep_mMark {s : State} (h : s.phase = .mMark) : engineStep s = s.stepMMark := by simp [engineStep, h]
theorem engineStep_mKgen {s : State} (h : s.phase = .mKgen) : engineStep s = .next s.stepMKgen := by simp [engineStep, h]
theorem engineStep_mRd {s : State} (h : s.phase = .mRd) : engineStep s = s.stepMRd := by simp [engineStep, h]
theorem engineStep_mWr {s : State} (h : s.phase = .mWr) : engineStep s = s.stepMWr := by simp [engineStep, h]
theorem engineStep_finish {s : State} (h : s.phase = .finish) : engineStep s = .next s.finish := by simp [engineStep, h]

/-- From FINISH, one step or more completes the command. -/
theorem runEngine_finish {s : State} (h : s.phase = .finish) {n : Nat} (hn : 1 ≤ n) : runEngine n s = .next s.finish := by
  obtain ⟨k, rfl⟩ := Nat.exists_eq_add_of_le hn
  rw [Nat.add_comm, runEngine_succ, engineStep_finish h, andThen_next, runEngine_idle k rfl]

/-- A run whose first step is known. -/
theorem runEngine_of_step {s t : State} (h : engineStep s = .next t) {n : Nat} (hn : 1 ≤ n) :
    runEngine n s = runEngine (n - 1) t := by
  obtain ⟨k, rfl⟩ := Nat.exists_eq_add_of_le hn
  rw [Nat.add_comm, runEngine_succ, h, andThen_next, Nat.add_sub_cancel]

/-! M_CHECK (R151). -/

theorem stepMCheck_of_empty {s : State} (h : s.eng.size = 0) : s.stepMCheck = s.raise .skipEmpty 0 0 0 := by
  simp [State.stepMCheck, h]

theorem stepMCheck_of_range {s : State} (h : s.eng.size ≠ 0) (hr : Config.memSpan < s.eng.base.toNat + s.eng.size.toNat) :
    s.stepMCheck = s.raise .errAddrRange 0 0 0 := by
  rw [State.stepMCheck, if_neg h, if_pos hr]

theorem stepMCheck_of_small {s : State} (h : s.eng.size ≠ 0) (hr : s.eng.base.toNat + s.eng.size.toNat ≤ Config.memSpan)
    (hs : s.eng.size.toNat < 8) : s.stepMCheck = s.raise .skipTooSmallHeader 0 0 0 := by
  rw [State.stepMCheck, if_neg h, if_neg (by omega), if_pos hs]

theorem stepMCheck_of_ok {s : State} (hr : s.eng.base.toNat + s.eng.size.toNat ≤ Config.memSpan) (hs : 8 ≤ s.eng.size.toNat) :
    s.stepMCheck = { s with eng := { s.eng with markCount := 0 }, phase := .mMark } := by
  have h : s.eng.size ≠ 0 := fun h => by simp [h] at hs
  rw [State.stepMCheck, if_neg h, if_neg (by omega), if_neg (by omega)]

/-! Reads and writes on the memory port, no byte being in a race. -/

theorem memRead_ok {s : State} {a : Nat} {onOk : Byte → State → Result} {onErr : State → Result} (ha : a < Config.memSpan)
    (hd : s.isDevice a = false) (hr : ∀ r ∈ s.responses.head?, r = .ok) (hc : a ∉ s.raced) :
    memRead s a onOk onErr = onOk (s.readByte a) { s with responses := s.responses.tail } := by
  rw [memRead, transact_ok ha hd hr, portByte_of_not_raced (by exact hc), afterPortRead_of_not_raced (by exact hc)]
  rfl

theorem memRead_busErr {s : State} {a : Nat} {onOk : Byte → State → Result} {onErr : State → Result} {rs : List Response}
    (ha : a < Config.memSpan) (hd : s.isDevice a = false) (hr : s.responses = .busErr :: rs) :
    memRead s a onOk onErr = onErr { s with responses := rs } := by
  rw [memRead, transact_busErr ha hd hr]

theorem memWrite_ok {s : State} {a : Nat} {v : Byte} {onOk onErr : State → Result} (ha : a < Config.memSpan)
    (hd : s.isDevice a = false) (hr : ∀ r ∈ s.responses.head?, r = .ok) :
    memWrite s a v onOk onErr = onOk (State.stored { s with responses := s.responses.tail } a v) := by
  rw [memWrite, transact_ok ha hd hr]

theorem memWrite_busErr {s : State} {a : Nat} {v : Byte} {onOk onErr : State → Result} {rs : List Response}
    (ha : a < Config.memSpan) (hd : s.isDevice a = false) (hr : s.responses = .busErr :: rs) :
    memWrite s a v onOk onErr = onErr (State.storeFailed { s with responses := rs } a) := by
  rw [memWrite, transact_busErr ha hd hr]

/-! The marker (R155 to R157). -/

theorem markRead_of_more {s : State} (r : Byte) (h : s.eng.markCount.toNat < 3) :
    s.markRead r = { s with
      eng := { s.eng with
        mark := s.eng.mark.setIfInBounds s.eng.markCount.toNat r
        markCount := s.eng.markCount + 1 },
      phase := .mMark } := by
  have : (s.eng.markCount + 1).toNat < 4 := by rw [BitVec.toNat_add]; simp; omega
  rw [State.markRead, if_pos this]

/-! The window (R168, M_KGEN and M_WR's `else`). -/

theorem stepMKgen_eq (s : State) :
    s.stepMKgen = { s with
      work := Config.freeWork s.freeCtr
      freeCtr := s.freeCtr + 1
      eng := { s.eng with kbuf := keystream s.eng.key s.eng.ctr s.eng.nonce }
      phase := .mRd } := by
  simp only [State.stepMKgen, State.fillKbuf, State.releaseWork, State.blockOnWork_eq, keystream]

theorem byteDone_of_last {s : State} (h : s.eng.off + 1 = s.eng.win) :
    s.byteDone = State.raise { s with eng := { s.eng with off := s.eng.off + 1 } } .ok s.eng.win s.eng.win (s.eng.ctr + 1) :=
  if_pos h

theorem byteDone_of_block {s : State} (h : s.eng.off + 1 ≠ s.eng.win) (hb : (s.eng.off + 1).toNat % Config.blockBytes = 0) :
    s.byteDone = { s with eng := { s.eng with off := s.eng.off + 1, ctr := s.eng.ctr + 1 }, phase := .mKgen } :=
  (if_neg h).trans (if_pos hb)

theorem byteDone_of_more {s : State} (h : s.eng.off + 1 ≠ s.eng.win) (hb : (s.eng.off + 1).toNat % Config.blockBytes ≠ 0) :
    s.byteDone = { s with eng := { s.eng with off := s.eng.off + 1 }, phase := .mRd } :=
  (if_neg h).trans (if_neg hb)

end Sys2Proof.Machine
end

