-- ==== Sys2Proof/Laws/EngineMove.lean ====
section
/-! SUPPORT. Everything one engine transition can do, said once (`EngineMove`), and what no transition touches. -/

namespace Sys2Proof.Machine

/-- One engine transition that answers a next state: what it found, and the state it leaves. A byte read is the byte of memory
where no byte is in a race. -/
inductive EngineMove (s : State) : State → Prop where
  | idle : s.phase = .idle → EngineMove s s
  | gRun : s.phase = .gRun → EngineMove s s.stepGRun
  | mCheck : s.phase = .mCheck → EngineMove s s.stepMCheck
  | mMark (b : Byte) (n : Nat) : s.phase = .mMark →
      (s.raced = [] → b = s.readByte (s.eng.base.toNat + s.eng.markCount.toNat)) →
      EngineMove s (State.markRead { s with responses := s.responses.tail, freeCtr := n } b)
  | mMarkErr (rs : List Response) : s.phase = .mMark → s.responses = .busErr :: rs →
      EngineMove s (State.raise { s with responses := rs } .errBus 0 0 0)
  | mKgen : s.phase = .mKgen → EngineMove s s.stepMKgen
  | mRd (b : Byte) (n : Nat) : s.phase = .mRd → (s.raced = [] → b = s.readByte s.eng.windowAddr) →
      EngineMove s { s with
        responses := s.responses.tail
        freeCtr := n
        eng := { s.eng with rbyte := b }
        phase := .mWr }
  | mRdErr (rs : List Response) : s.phase = .mRd → s.responses = .busErr :: rs →
      EngineMove s (State.windowError { s with responses := rs })
  | mWr : s.phase = .mWr → s.eng.windowAddr < Config.memSpan →
      EngineMove s
        (State.byteDone (State.stored { s with responses := s.responses.tail } s.eng.windowAddr s.eng.maskedByte))
  | mWrErr (rs : List Response) : s.phase = .mWr → s.eng.windowAddr < Config.memSpan → s.responses = .busErr :: rs →
      EngineMove s (State.windowError (State.storeFailed { s with responses := rs } s.eng.windowAddr))
  | never (rs : List Response) : s.phase = .mMark ∨ s.phase = .mRd ∨ s.phase = .mWr → s.responses = .never :: rs →
      EngineMove s s
  | finish : s.phase = .finish → EngineMove s s.finish

/-- An exhausted list of answers is its own tail. -/
theorem tail_of_exhausted {s : State} (h : s.responses = []) : { s with responses := s.responses.tail } = s := by
  cases s; simp_all

/-- What a port read hands on, whatever list of answers is left. -/
theorem portRead_eq (s : State) (a : Nat) (rs : List Response) :
    ∃ n, State.afterPortRead { s with responses := rs } a = { s with responses := rs, freeCtr := n } ∧
      (s.raced = [] → State.portByte { s with responses := rs } a = s.readByte a) := by
  obtain ⟨n, hn⟩ := afterPortRead_eq { s with responses := rs } a
  exact ⟨n, hn, fun h => portByte_of_not_raced (by show a ∉ s.raced; simp [h])⟩

/-- A port read that answers a next state: it was answered OK, it was answered BUSERR, or it was not answered. -/
theorem memRead_cases {s t : State} {a : Nat} {onOk : Byte → State → Result} {onErr : State → Result}
    (h : memRead s a onOk onErr = .next t) :
    (∃ b n, (s.raced = [] → b = s.readByte a) ∧ onOk b { s with responses := s.responses.tail, freeCtr := n } = .next t) ∨
    (∃ rs, s.responses = .busErr :: rs ∧ onErr { s with responses := rs } = .next t) ∨
    (∃ rs, s.responses = .never :: rs ∧ t = s) := by
  obtain ⟨-, -, ⟨hr, h⟩ | ⟨rs, hr, h⟩ | ⟨rs, hr, h⟩ | ⟨rs, hr, h⟩⟩ := transact_cases h
  · obtain ⟨n, h1, h2⟩ := portRead_eq s a s.responses.tail
    rw [tail_of_exhausted hr] at h1 h2
    exact .inl ⟨s.portByte a, n, h2, by rw [← h1]; exact h⟩
  · obtain ⟨n, h1, h2⟩ := portRead_eq s a rs
    refine .inl ⟨State.portByte { s with responses := rs } a, n, h2, ?_⟩
    rw [hr, List.tail_cons, ← h1]
    exact h
  · exact .inr (.inl ⟨rs, hr, h⟩)
  · exact .inr (.inr ⟨rs, hr, h⟩)

/-- Every engine transition is one of these moves. -/
theorem engineStep_move {s t : State} (h : engineStep s = .next t) : EngineMove s t := by
  unfold engineStep at h
  split at h
  · next hp => cases h; exact .idle hp
  · next hp => cases h; exact .gRun hp
  · next hp => cases h; exact .mCheck hp
  · next hp =>
    obtain ⟨b, n, hb, h⟩ | ⟨rs, hr, h⟩ | ⟨rs, hr, rfl⟩ := memRead_cases h
    · cases h; exact .mMark b n hp hb
    · cases h; exact .mMarkErr rs hp hr
    · exact EngineMove.never rs (.inl hp) hr
  · next hp => cases h; exact .mKgen hp
  · next hp =>
    obtain ⟨b, n, hb, h⟩ | ⟨rs, hr, h⟩ | ⟨rs, hr, rfl⟩ := memRead_cases h
    · cases h; exact .mRd b n hp hb
    · cases h; exact .mRdErr rs hp hr
    · exact EngineMove.never rs (.inr (.inl hp)) hr
  · next hp =>
    rw [State.stepMWr, memWrite] at h
    obtain ⟨ha, -, ⟨hr, h⟩ | ⟨rs, hr, h⟩ | ⟨rs, hr, h⟩ | ⟨rs, hr, rfl⟩⟩ := transact_cases h
    · have hm := EngineMove.mWr hp ha
      rw [tail_of_exhausted hr] at hm
      cases h; exact hm
    · have hm := EngineMove.mWr hp ha
      rw [hr] at hm
      cases h; exact hm
    · cases h; exact .mWrErr rs hp ha hr
    · exact EngineMove.never rs (.inr (.inr hp)) hr
  · next hp => cases h; exact .finish hp

/-- M_CHECK changes the engine and the phase only. -/
theorem stepMCheck_eq (s : State) : ∃ e p, s.stepMCheck = { s with eng := e, phase := p } := by
  unfold State.stepMCheck
  repeat' split
  all_goals exact ⟨_, _, rfl⟩

/-- A marker byte read changes the engine and the phase only. -/
theorem markRead_eq (s : State) (b : Byte) : ∃ e p, s.markRead b = { s with eng := e, phase := p } := by
  unfold State.markRead
  simp only
  repeat' split
  all_goals exact ⟨_, _, rfl⟩

/-- A window byte written changes the engine and the phase only. -/
theorem byteDone_eq (s : State) : ∃ e p, s.byteDone = { s with eng := e, phase := p } := by
  unfold State.byteDone
  simp only
  repeat' split
  all_goals exact ⟨_, _, rfl⟩

/-- What no engine transition touches: the operand registers, CMD_DROPPED, the host's side and the platform. -/
structure EngineKeeps (s t : State) : Prop where
  counter : t.counter = s.counter
  key : t.key = s.key
  nonce : t.nonce = s.nonce
  bufBaseLo : t.bufBaseLo = s.bufBaseLo
  bufBaseHi : t.bufBaseHi = s.bufBaseHi
  bufSizeLo : t.bufSizeLo = s.bufSizeLo
  bufSizeHi : t.bufSizeHi = s.bufSizeHi
  cmdDropped : t.status.cmdDropped = s.status.cmdDropped
  devices : t.devices = s.devices
  host : t.host = s.host
  slack : t.slack = s.slack
  temps : t.temps = s.temps

theorem EngineKeeps.refl (s : State) : EngineKeeps s s := by constructor <;> rfl

theorem EngineKeeps.trans {s t u : State} (h : EngineKeeps s t) (g : EngineKeeps t u) : EngineKeeps s u := by
  cases h; cases g; constructor <;> simp_all

theorem EngineMove.keeps {s t : State} (h : EngineMove s t) : EngineKeeps s t := by
  cases h
  case mCheck =>
    obtain ⟨e, p, h⟩ := stepMCheck_eq s
    rw [h]; constructor <;> rfl
  case mMark b n _ _ =>
    obtain ⟨e, p, h⟩ := markRead_eq { s with responses := s.responses.tail, freeCtr := n } b
    rw [h]; constructor <;> rfl
  case mWr =>
    obtain ⟨e, p, h⟩ := byteDone_eq
      (State.stored { s with responses := s.responses.tail } s.eng.windowAddr s.eng.maskedByte)
    rw [h]; constructor <;> rfl
  all_goals constructor <;> rfl

theorem runEngine_keepsHost {n : Nat} {s t : State} (h : runEngine n s = .next t) : EngineKeeps s t :=
  runEngine_keeps (P := EngineKeeps s) (fun _ _ h hs => h.trans (engineStep_move hs).keeps) n (EngineKeeps.refl s) h

end Sys2Proof.Machine
end

