-- ==== Sys2Proof/Laws/PerInstr.lean ====
section
/-! SUPPORT. What holds of every command as syntax: the form of its command word (R90, R91). -/

namespace Sys2Proof.Laws.CommandWord

/-- A command is well formed, its word has RSVD = 0, and its OP is its own code, which is neither reserved value range of R91. -/
def Statement (i : Instr) : Prop :=
  i.wellFormed = true ∧ rsvdField (encode i) = 0 ∧ opField (encode i) = i.opcode ∧ 0x1 ≤ i.opcode.toNat ∧ i.opcode.toNat < 0x4

theorem genBlock : Statement .genBlock := by unfold Statement; decide

theorem genBlockFixed : Statement .genBlockFixed := by unfold Statement; decide

theorem maskHeader : Statement .maskHeader := by unfold Statement; decide

end Sys2Proof.Laws.CommandWord
end

