-- ==== Sys2Proof/Laws/Step.lean ====
section
/-! SUPPORT. The step by the host's next turn, and the register port's decoding of an access. -/

namespace Sys2Proof.Machine

/-- With no host turn left, a step is one engine transition. -/
theorem step_of_no_turn {s : State} (h : s.host = []) : step s = engineStep s := by simp [step, fetch, h]

/-- With a host turn to come, a step takes it: a command word is decoded and run, anything else is already done. -/
theorem step_of_turn {s : State} {turn : HostTurn} {rest : List HostTurn} (h : s.host = turn :: rest) :
    step s = match hostTurn { s with host := rest, slack := turn.slack } turn with
      | .command w t =>
        match decode w with
        | .instr i => exec i t
        | .bad why => execBad why t
      | .done o => o := by
  have hf : fetch s = hostTurn { s with host := rest, slack := turn.slack } turn := by simp [fetch, h]
  rw [step, hf] <;> rfl

/-- R97: the accesses the port accepts. -/
theorem portRefusal_eq_none {a : PortAccess} : portRefusal a = none ↔ a.wellFormed = true := by
  unfold portRefusal PortAccess.wellFormed
  cases a.widthOk <;> cases a.inBlock <;> cases a.aligned <;> simp

/-- R23: no register above KS15. -/
theorem ofOffset_of_ge {o : Nat} (h : 0x0C0 ≤ o) : Reg.ofOffset o = none := by
  unfold Reg.ofOffset
  repeat rw [if_neg (by omega)]

end Sys2Proof.Machine
end

