-- ==== Sys2Proof/Tests/Slice0.lean ====
section
/-! SUPPORT. Tests of the model's own author (expected values from 95_test_vectors.md and the rules), and for every statement with
hypotheses a witness that meets them together. -/

namespace Sys2Proof.Tests

open Sys2Proof.Machine

/-! Helpers. -/

/-- Memory holding the bytes `bs` from `base` on. -/
def cells (base : Nat) (bs : List Byte) : List Host.Cell :=
  ((bs.zipIdx base).map fun c => (c.2, c.1)).filter fun c => c.2 != 0

/-- H of 95_test_vectors.md: the marker and version 1. -/
def header : List Byte := [0xAF, 0x1B, 0xB1, 0xFA, 0x01, 0x00, 0x00, 0x00]

/-- After reset, with a buffer in memory, BUF_BASE and BUF_SIZE written, and the memory's coming answers. -/
def buffer (base size : DWord) (bs : List Byte) (rs : List Response) : State :=
  { State.reset with
    bufBaseLo := base.extractLsb' 0 32
    bufBaseHi := base.extractLsb' 32 32
    bufSizeLo := size.extractLsb' 0 32
    bufSizeHi := size.extractLsb' 32 32
    mem := cells base.toNat bs
    responses := rs }

/-- A state with one host turn to come. -/
def withTurn (s : State) (op : HostOp) (k : Slack) : State := { s with host := [{ op := op, slack := k }] }

/-- Does the outcome hold a next state with the property? -/
def nextIs (p : State → Bool) : Result → Bool
  | .next t => p t
  | .fault _ => false
  | .refused _ => false

theorem exists_of_nextIs {p : State → Bool} {o : Result} (h : nextIs p o = true) : ∃ t, o = .next t ∧ p t = true := by
  cases o with
  | next t => exact ⟨t, rfl, h⟩
  | fault r => cases h
  | refused r => cases h

/-- Is the outcome this refusal? -/
def refusedAs (r : Refusal) : Result → Bool
  | .next _ => false
  | .fault _ => false
  | .refused q => q == r

/-- What a completed command leaves: STATUS, WIN_LEN, BYTES_DONE, BLOCKS, and how many answers of the memory are left. -/
def report (o : Result) : Option (Word × Word × Word × Word × Nat) :=
  match o with
  | .next t => some (t.status.toWord, t.winLen, t.bytesDone, t.blocks, t.responses.length)
  | .fault _ => none
  | .refused _ => none

/-! Ill-formed terms: WellFormed refuses each (R97). -/

theorem test_portAccess_illFormed :
    PortAccess.widthOk { offset := 0x004, width := 2 } = false ∧ PortAccess.widthOk { offset := 0x004, width := 8 } = false ∧
    PortAccess.inBlock { offset := 0x100, width := 4 } = false ∧ PortAccess.aligned { offset := 0x0FE, width := 4 } = false ∧
    PortAccess.wellFormed { offset := 0x004, width := 2 } = false ∧ PortAccess.wellFormed { offset := 0x100, width := 4 } = false ∧
    PortAccess.wellFormed { offset := 0x0FE, width := 4 } = false ∧ PortAccess.wellFormed { offset := 0x0FC, width := 4 } = true := by
  decide

/-! Decoding: words written out bit by bit from R90 and R91, and the bad words V22 to V26. -/

theorem test_decode_genBlock : decode 0b00000000000000000000000000000001 = .instr .genBlock := by decide
theorem test_decode_genBlockFixed : decode 0b00000000000000000000000000000010 = .instr .genBlockFixed := by decide
theorem test_decode_maskHeader : decode 0b00000000000000000000000000000011 = .instr .maskHeader := by decide

theorem test_decode_bad :
    decode 0x00000000 = .bad .reservedOp ∧ decode 0x00000004 = .bad .reservedOp ∧ decode 0x0000000F = .bad .reservedOp ∧
    decode 0x00000013 = .bad .reservedBits ∧ decode 0x80000001 = .bad .reservedBits := by decide

theorem test_decodeTableWord :
    decodeTableWord 32 0x00000001 = some .genBlock ∧ decodeTableWord 32 0x00000002 = some .genBlockFixed ∧
    decodeTableWord 32 0x00000003 = some .maskHeader ∧ decodeTableWord 32 0x00000004 = none := by decide

/-! Word operations and the block function. -/

/-- V2. -/
theorem test_wordOps :
    (0xFFFFFFFF : Word) + 0x00000001 = 0x00000000 ∧ rotl32 0x80000001 7 = 0x000000C0 ∧ rotl32 0x80000001 16 = 0x00018000 ∧
    rotl32 0x12345678 8 = 0x34567812 ∧ rotl32 0x00000001 12 = 0x00001000 := by decide

/-- W8, R11: SIGMA stores as the text "expand 32-byte k", and loads back. -/
theorem test_littleEndian :
    (le32StoreAll Config.sigma).toList.map (fun b => Char.ofNat b.toNat) = "expand 32-byte k".toList ∧
    le32 0x65 0x78 0x70 0x61 = 0x61707865 := by decide +kernel

/-- V1. -/
theorem test_quarterRound :
    (quarterRound #v[0x11111111, 0x01020304, 0x9b8d6f43, 0x01234567, 0, 0, 0, 0, 0, 0, 0, 0, 0, 0, 0, 7] 0 1 2 3) =
      #v[0xea2a92f4, 0xcb1cf8ce, 0x4581472e, 0x5881c4bb, 0, 0, 0, 0, 0, 0, 0, 0, 0, 0, 0, 7] := by decide +kernel

/-! Instructions: at most two tests each. -/

/-- V6: GEN_BLOCK on the register setup of 95_test_vectors.md. -/
theorem test_genBlock_V6 :
    nextIs (fun t => t.ks == #v[0xe4e7f110, 0x15593bd1, 0x1fdd0f50, 0xc47120a3, 0xc7f4d1c7, 0x0368c033, 0x9aaa2204, 0x4e6cd4c3,
        0x466482d2, 0x09aa9f07, 0x05d7c214, 0xa2028bd9, 0xd19c12b5, 0xb94e16de, 0xe883d0cb, 0x4e3c50a2])
      (exec .genBlock { State.reset with
        key := #v[0x03020100, 0x07060504, 0x0b0a0908, 0x0f0e0d0c, 0x13121110, 0x17161514, 0x1b1a1918, 0x1f1e1d1c]
        nonce := #v[0x09000000, 0x4a000000, 0x00000000]
        counter := 1 }) = true := by decide +kernel

/-- V5: the counter at its top, no carry into the nonce; COUNTER is unchanged. -/
theorem test_genBlock_V5 :
    nextIs (fun t => t.ks[0] == 0x09cde4ac && t.ks[12] == 0x816269f1 && t.ks[13] == 0x683efcda && t.counter == 0xFFFFFFFF &&
        t.status.toWord == 0x00000012 && t.blocks == 1)
      (exec .genBlock { State.reset with counter := 0xFFFFFFFF }) = true := by decide +kernel

/-- R128: GEN_BLOCK_FIXED completes with OK and reads no key or nonce register. -/
theorem test_genBlockFixed :
    report (exec .genBlockFixed { State.reset with winLen := 5, bytesDone := 5 }) = some (0x00000012, 0, 0, 1, 0) := by decide +kernel

/-- V9, V10a, V10b, V12a, V12b, V16, V17a, V20: the outcomes without masking; of four answers listed, how many are left. -/
theorem test_maskHeader_skips :
    (List.map (fun s => report (exec .maskHeader s))
      [buffer 0x1000 0 header [.ok],
        buffer 0x1000 7 header [.ok],
        buffer 0x1000 3 [0xAF, 0x1B, 0xB1] [.ok],
        buffer 0x1000 8 header [.ok, .ok, .ok, .ok],
        buffer 0x1000 8 [0, 0, 0, 0, 1] [.ok, .ok, .ok, .ok],
        buffer 0x1000 12 [0xFA, 0xB1, 0x1B, 0xAF, 1] [.ok, .ok, .ok, .ok],
        buffer 0xFFFFFFFFFFFFFFF8 9 header [.ok],
        buffer 0x1000 7 [0x00, 0x11, 0x22, 0x33] [.ok]]) =
      [some (0x00000022, 0, 0, 0, 1),
        some (0x00000036, 0, 0, 0, 1),
        some (0x00000036, 0, 0, 0, 1),
        some (0x00000056, 0, 0, 0, 0),
        some (0x00000046, 0, 0, 0, 0),
        some (0x00000046, 0, 0, 0, 0),
        some (0x00000062, 0, 0, 0, 1),
        some (0x00000036, 0, 0, 0, 1)] := by decide +kernel

/-- V11, V13, V17b, V18, V19: windows, and bus errors. -/
theorem test_maskHeader_windows :
    (List.map (fun s => report (exec .maskHeader s))
      [buffer 0x1000 9 header (List.replicate 6 .ok),
        buffer 0x1000 73 header (List.replicate 134 .ok),
        buffer 0xFFFFFFFFFFFFFFF7 9 header [],
        buffer 0x1000 20 header (List.replicate 14 .ok ++ [.busErr]),
        buffer 0x1000 20 header [.ok, .ok, .busErr]]) =
      [some (0x00000012, 1, 1, 1, 0),
        some (0x00000012, 65, 65, 2, 0),
        some (0x00000012, 1, 1, 1, 0),
        some (0x00000072, 12, 5, 1, 0),
        some (0x00000072, 0, 0, 0, 0)] := by decide +kernel

/-- V18 with the key and nonce of TI0 latched: from M_KGEN on, five window bytes are masked. -/
theorem test_window_V18 :
    nextIs (fun t => (List.range 6).map (fun i => t.readByte (0x1008 + i)) == [0x76, 0xb8, 0xe0, 0xad, 0xa0, 0x00])
      (runEngine 12 { buffer 0x1000 20 header (List.replicate 10 .ok ++ [.busErr]) with
        phase := .mKgen
        eng := { Engine.reset with op := .instr .maskHeader, base := 0x1000, size := 20, win := 12 } }) = true := by decide +kernel

/-! Machine-level behaviour. -/

/-- V28, V29: writes to STATUS. -/
theorem test_status_w1c :
    let s := { State.reset with status := { busy := false, done := true, diag := false, cmdDropped := true, outcome := .ok } }
    s.readOffset 0x004 = 0x1A ∧ (s.writeOffset 0x004 0x00000008).readOffset 0x004 = 0x12 ∧
      (s.writeOffset 0x004 0xFFFFFFF7).readOffset 0x004 = 0x1A := by decide

/-- V22 and V26: a bad command through the step. -/
theorem test_badCommand :
    report (step (State.reset.withFetchWord 32 0x00000000)) = some (0x00000082, 0, 0, 0, 0) ∧
    report (step (State.reset.withFetchWord 32 0x80000001)) = some (0x00000082, 0, 0, 0, 0) := by decide +kernel

/-- V27: a command while a MASK_HEADER runs is dropped; the running one finishes, and STATUS = 0x1A. -/
theorem test_drop_V27 :
    report (andThen (exec .maskHeader { buffer 0x1000 9 header [] with slack := .steps 3 }) fun t =>
      exec .genBlock { t with slack := .untilIdle }) = some (0x0000001A, 1, 1, 1, 0) := by decide +kernel

/-- With no command word placed, a step from reset leaves the machine as it is (log 2). -/
theorem test_reset_idle : step State.reset = .next State.reset := by rfl

/-! Witnesses: states and operands that meet all the hypotheses of a statement together. -/

theorem witness_StepRunsTheDecodedCommand :
    (State.reset.withFetchWord 32 0x00000003).host = commandTurn 0x00000003 .untilIdle :: [] ∧
      decode 0x00000003 = .instr .maskHeader := by decide

theorem witness_BadCommandCompletes :
    let s := State.reset.withFetchWord 32 0x00000013
    s.host = commandTurn 0x00000013 .untilIdle :: [] ∧ decode 0x00000013 = .bad .reservedBits ∧ s.status.busy = false ∧
      1 ≤ Slack.untilIdle.count := by decide

/-- One witness a clause, at the clauses' edges: widths 2 and 8, the first offset past the block, the last misaligned ones. -/
theorem witness_PortAccessesOutsideTheRulesAreRefused :
    refusedAs (.portWidth 2) (step (withTurn State.reset (.wr { offset := 0x004, width := 2 } 0) .untilIdle)) = true ∧
    refusedAs (.portWidth 8) (step (withTurn State.reset (.rd { offset := 0x100, width := 8 } 1) .untilIdle)) = true ∧
    refusedAs (.portOutside 0x100) (step (withTurn State.reset (.rd { offset := 0x100, width := 4 } 1) .untilIdle)) = true ∧
    refusedAs (.portOutside 0x101) (step (withTurn State.reset (.wr { offset := 0x101, width := 4 } 0) .untilIdle)) = true ∧
    refusedAs (.portMisaligned 0x0FF) (step (withTurn State.reset (.wr { offset := 0x0FF, width := 4 } 0) .untilIdle)) = true ∧
    refusedAs (.portMisaligned 0x001) (step (withTurn State.reset (.rd { offset := 0x001, width := 4 } 1) .untilIdle)) = true := by
  decide

/-- The edges of the block, a write and a read of each. -/
theorem witness_PortReadsAndWritesTakeEffect :
    (withTurn State.reset (.wr { offset := 0x004, width := 4 } 8) (.steps 0)).host =
      { op := .wr { offset := 0x004, width := 4 } 8, slack := .steps 0 } :: [] ∧ (0x004 : Nat) ≠ 0 ∧ 0x004 < 0x100 ∧ 0x004 % 4 = 0 ∧
    (withTurn State.reset (.rd { offset := 0x000, width := 4 } 1) (.steps 0)).host =
      { op := .rd { offset := 0x000, width := 4 } 1, slack := .steps 0 } :: [] ∧
    (withTurn State.reset (.rd { offset := 0x0FC, width := 4 } 1) (.steps 0)).host =
      { op := .rd { offset := 0x0FC, width := 4 } 1, slack := .steps 0 } :: [] ∧ 0x0FC < 0x100 ∧ 0x0FC % 4 = 0 := by decide

/-- A MASK_HEADER just accepted: BUSY = 1, M_CHECK. -/
def running : State := State.acceptMaskHeader (buffer 0x1000 9 header [])

theorem witness_WaitDonePolls :
    (withTurn State.reset .waitDone .untilIdle).host = waitDone .untilIdle :: [] ∧ State.reset.status.busy = false ∧
      State.reset.phase = .idle ∧
    (withTurn running .waitDone (.steps 0)).host = waitDone (.steps 0) :: [] ∧ running.status.busy = true := by decide

theorem witness_CommandAroundFinishBothOrders :
    let s := { running.raise .skipEmpty 0 0 0 with slack := .steps 0 }
    s.status.busy = true ∧ s.phase = .finish ∧ s.slack = .steps 0 := by decide

/-- The first and the last reserved offset. -/
theorem witness_ReservedOffsetsReadZeroIgnoreWrites :
    ∀ o ∈ [0x018, 0x0FC], o < 0x100 ∧ o % 4 = 0 ∧ ∀ r : Reg, r.offset ≠ o := by
  intro o ho
  simp only [List.mem_cons, List.not_mem_nil, or_false] at ho
  rcases ho with rfl | rfl <;> refine ⟨by decide, by decide, fun r => ?_⟩ <;> cases r <;> simp only [Reg.offset] <;> omega

theorem witness_RegisterWriteReadsBack :
    Reg.counter.access = .rw ∧ (Reg.key 7).access = .rw ∧ Reg.status ≠ Reg.counter ∧ (Reg.ks 15).access = .ro := by decide

/-- A reset while IDLE, and one with the write of the window byte 0x1008 in flight. -/
theorem witness_ResetInputAborts :
    (withTurn State.reset .reset .untilIdle).host = { op := .reset, slack := .untilIdle } :: [] ∧ 0 ∉ State.reset.raced ∧
    (let s := withTurn { running with phase := .mWr } .reset (.steps 0)
     s.host = { op := .reset, slack := .steps 0 } :: [] ∧ 0x1008 ∉ s.raced ∧ s.phase = .mWr ∧ 0x1008 = s.eng.windowAddr) := by decide

theorem witness_AcceptanceLatchesOperands :
    let s := { State.reset with slack := .steps 0 }
    s.status.busy = false ∧ s.slack = .steps 0 := by decide

/-- A CMD write while BUSY = 1, and CMD_DROPPED cleared by a write to STATUS and by a reset. -/
theorem witness_CommandWhileBusyIsDropped :
    (let s := { running with host := [commandTurn 0x00000001 (.steps 0)] }
     s.status.busy = true ∧ s.host = commandTurn 0x00000001 (.steps 0) :: []) ∧
    (let s := { State.reset with status := { State.reset.status with cmdDropped := true } }
     s.status.cmdDropped = true ∧
     (∃ t, step (withTurn s (.wr { offset := 0x004, width := 4 } 8) .untilIdle) = .next t ∧ (!t.status.cmdDropped) = true) ∧
     ∃ t, step (withTurn s .reset .untilIdle) = .next t ∧ (!t.status.cmdDropped) = true) :=
  ⟨by decide, by decide, exists_of_nextIs (by decide +kernel), exists_of_nextIs (by decide +kernel)⟩

theorem witness_QuarterRoundOperations :
    (0 : Fin 16) ≠ 5 ∧ (0 : Fin 16) ≠ 10 ∧ (0 : Fin 16) ≠ 15 ∧ (5 : Fin 16) ≠ 10 ∧ (5 : Fin 16) ≠ 15 ∧ (10 : Fin 16) ≠ 15 := by decide

/-- Two quarter-rounds of a column round, and the rounds' quarter-rounds in the opposite order. -/
theorem witness_DisjointQuarterRoundsCommute :
    (∀ i ∈ [(0 : Fin 16), 4, 8, 12], i ∉ [(1 : Fin 16), 5, 9, 13]) ∧
    [((3 : Fin 16), (7 : Fin 16), (11 : Fin 16), (15 : Fin 16)), (2, 6, 10, 14), (1, 5, 9, 13), (0, 4, 8, 12)].Perm
      [(0, 4, 8, 12), (1, 5, 9, 13), (2, 6, 10, 14), (3, 7, 11, 15)] ∧
    [((3 : Fin 16), (4 : Fin 16), (9 : Fin 16), (14 : Fin 16)), (2, 7, 8, 13), (1, 6, 11, 12), (0, 5, 10, 15)].Perm
      [(0, 5, 10, 15), (1, 6, 11, 12), (2, 7, 8, 13), (3, 4, 9, 14)] := by decide

/-- For GenBlockCompletes, GenBlockFixedCompletes, KeystreamReadThroughTheRegisters. -/
theorem witness_GenBlockCompletes : State.reset.status.busy = false ∧ 2 ≤ State.reset.slack.count := by decide

theorem witness_MaskHeaderSkipsEmpty :
    let s := buffer 0x1000 0 header []
    s.status.busy = false ∧ 2 ≤ s.slack.count ∧ s.bufSize.toNat = 0 := by decide

/-- V17a. -/
theorem witness_MaskHeaderChecksTheAddressRange :
    let s := buffer 0xFFFFFFFFFFFFFFF8 9 header []
    s.status.busy = false ∧ 2 ≤ s.slack.count ∧ 1 ≤ s.bufSize.toNat ∧ 2 ^ 64 < s.bufBase.toNat + s.bufSize.toNat := by decide

/-- Both edges of the sizes, the larger at the very top of memory. -/
theorem witness_MaskHeaderSkipsTooSmallForTheHeader :
    ∀ s ∈ [buffer 0x1000 1 [] [], buffer 0xFFFFFFFFFFFFFFF9 7 [] []], s.status.busy = false ∧ 2 ≤ s.slack.count ∧
      1 ≤ s.bufSize.toNat ∧ s.bufSize.toNat ≤ 7 ∧ s.bufBase.toNat + s.bufSize.toNat ≤ 2 ^ 64 := by decide

/-- No buffer of `buffer` is in memory with side effects. -/
theorem bufferOrdinary (base size : DWord) (bs : List Byte) (rs : List Response) : (buffer base size bs rs).BufferOrdinary :=
  fun _ _ _ => rfl

/-- V19: the third marker read. -/
theorem witness_MaskHeaderMarkerBusError :
    let s := buffer 0x1000 20 header [.ok, .ok, .busErr]
    s.status.busy = false ∧ 3 + 2 ≤ s.slack.count ∧ 8 ≤ s.bufSize.toNat ∧ s.bufBase.toNat + s.bufSize.toNat ≤ 2 ^ 64 ∧
      s.BufferOrdinary ∧ (2 : Nat) < 4 ∧ s.responses = List.replicate 2 .ok ++ .busErr :: [] :=
  ⟨by decide, by decide, by decide, by decide, bufferOrdinary _ _ _ _, by decide, by decide⟩

/-- V16. -/
theorem witness_MaskHeaderSkipsForeignFormat :
    let s := buffer 0x1000 12 [0xFA, 0xB1, 0x1B, 0xAF, 1] [.ok, .ok, .ok, .ok]
    s.status.busy = false ∧ 6 ≤ s.slack.count ∧ 8 ≤ s.bufSize.toNat ∧ s.bufBase.toNat + s.bufSize.toNat ≤ 2 ^ 64 ∧
      s.BufferOrdinary ∧ (∀ r ∈ s.responses.take 4, r = .ok) ∧ ¬ s.MarkerAt s.bufBase.toNat :=
  ⟨by decide, by decide, by decide, by decide, bufferOrdinary _ _ _ _, by decide, by decide⟩

/-- V12a. -/
theorem witness_MaskHeaderSkipsWithoutWindow :
    let s := buffer 0x1000 8 header [.ok, .ok, .ok, .ok]
    s.status.busy = false ∧ 6 ≤ s.slack.count ∧ s.bufSize.toNat = 8 ∧ s.bufBase.toNat + s.bufSize.toNat ≤ 2 ^ 64 ∧
      s.BufferOrdinary ∧ (∀ r ∈ s.responses.take 4, r = .ok) ∧ s.MarkerAt s.bufBase.toNat :=
  ⟨by decide, by decide, by decide, by decide, bufferOrdinary _ _ _ _, by decide, by decide⟩

/-- V17b, the smallest window at the very top of memory, and V15, the largest. -/
theorem witness_MaskHeaderMasksTheWindow :
    ∀ s ∈ [buffer 0xFFFFFFFFFFFFFFF7 9 header [], buffer 0x1000 10008 header []],
      s.status.busy = false ∧ 8 < s.bufSize.toNat ∧ s.bufBase.toNat + s.bufSize.toNat ≤ 2 ^ 64 ∧ s.BufferOrdinary ∧
      s.MarkerAt s.bufBase.toNat ∧ okSteps (min 0x200 (s.bufSize.toNat - 8)) ≤ s.slack.count ∧
      ∀ r ∈ s.responses.take (4 + 2 * min 0x200 (s.bufSize.toNat - 8)), r = .ok := by
  intro s hs
  simp only [List.mem_cons, List.not_mem_nil, or_false] at hs
  rcases hs with rfl | rfl
  · exact ⟨by decide, by decide, by decide, bufferOrdinary _ _ _ _, by decide, by decide, nofun⟩
  · exact ⟨by decide, by decide, by decide, bufferOrdinary _ _ _ _, by decide, by decide, nofun⟩

/-- V18. -/
theorem witness_MaskHeaderWindowReadBusError :
    let s := buffer 0x1000 20 header (List.replicate (4 + 2 * 5) .ok ++ [.busErr])
    s.status.busy = false ∧ 8 < s.bufSize.toNat ∧ s.bufBase.toNat + s.bufSize.toNat ≤ 2 ^ 64 ∧ s.BufferOrdinary ∧
      s.MarkerAt s.bufBase.toNat ∧ 5 < min 0x200 (s.bufSize.toNat - 8) ∧
      okSteps (min 0x200 (s.bufSize.toNat - 8)) ≤ s.slack.count ∧ s.responses = List.replicate (4 + 2 * 5) .ok ++ .busErr :: [] :=
  ⟨by decide, by decide, by decide, bufferOrdinary _ _ _ _, by decide, by decide, by decide, by decide⟩

/-- The write of the last byte of a window of 12. -/
theorem witness_MaskHeaderWindowWriteBusError :
    let s := buffer 0x1000 20 header (List.replicate (4 + 2 * 11 + 1) .ok ++ [.busErr])
    s.status.busy = false ∧ 8 < s.bufSize.toNat ∧ s.bufBase.toNat + s.bufSize.toNat ≤ 2 ^ 64 ∧ s.BufferOrdinary ∧
      s.MarkerAt s.bufBase.toNat ∧ 11 < min 0x200 (s.bufSize.toNat - 8) ∧
      okSteps (min 0x200 (s.bufSize.toNat - 8)) ≤ s.slack.count ∧
      s.responses = List.replicate (4 + 2 * 11 + 1) .ok ++ .busErr :: [] :=
  ⟨by decide, by decide, by decide, bufferOrdinary _ _ _ _, by decide, by decide, by decide, by decide⟩

/-- Running to the end, and only part of the way. -/
theorem witness_MaskHeaderFrame :
    (let s := buffer 0x1000 9 header []
     s.status.busy = false ∧ ∃ t, exec .maskHeader s = .next t ∧ (t.phase == .idle) = true) ∧
    (let s := { buffer 0x1000 9 header [] with slack := .steps 8 }
     s.status.busy = false ∧ ∃ t, exec .maskHeader s = .next t ∧ (t.phase == .finish) = true) :=
  ⟨⟨by decide, exists_of_nextIs (by decide +kernel)⟩, by decide, exists_of_nextIs (by decide +kernel)⟩

theorem witness_SkippedBufferIsUnchanged :
    let s := buffer 0x1000 12 [0xFA, 0xB1, 0x1B, 0xAF, 1] []
    s.status.busy = false ∧ ∃ t, exec .maskHeader s = .next t ∧
      (t.status.done && t.status.outcome != .ok && t.status.outcome != .errBus) = true ∧
      8 ≤ s.bufSize.toNat ∧ ¬ s.MarkerAt s.bufBase.toNat := by
  have h : nextIs (fun t => t.status.done && t.status.outcome != .ok && t.status.outcome != .errBus)
      (exec .maskHeader (buffer 0x1000 12 [0xFA, 0xB1, 0x1B, 0xAF, 1] [])) = true := by decide +kernel
  obtain ⟨t, h1, h2⟩ := exists_of_nextIs h
  exact ⟨by decide, t, h1, h2, by decide, by decide⟩

/-- The rows of R172 at their edges; the last two lie at the very top of memory. -/
theorem witness_OutcomeBySizeAndMarker :
    (∀ s ∈ [buffer 0x1000 0 header [], buffer 0x1000 1 header [], buffer 0x1000 7 header [], buffer 0x1000 8 header [],
        buffer 0x1000 8 [] [], buffer 0x1000 9 [] [], buffer 0x1000 9 header [], buffer 0xFFFFFFFFFFFFFDF8 0x208 header [],
        buffer 0xFFFFFFFFFFFFFDF7 0x209 header []],
      s.status.busy = false ∧ s.slack = .untilIdle ∧ s.responses = [] ∧ s.devices = [] ∧
        s.bufBase.toNat + s.bufSize.toNat ≤ 2 ^ 64) ∧
    (∀ s : State, s.responses = [] → s.devices = [] → s.AllOk ∧ s.BufferOrdinary) ∧
    (buffer 0x1000 9 header []).MarkerAt 0x1000 ∧ (buffer 0xFFFFFFFFFFFFFDF7 0x209 header []).MarkerAt 0xFFFFFFFFFFFFFDF7 ∧
    ¬ (buffer 0x1000 9 [] []).MarkerAt 0x1000 := by
  refine ⟨by decide, fun s hr hd => ⟨?_, ?_⟩, by decide, by decide, by decide⟩
  · unfold State.AllOk; rw [hr]; nofun
  · intro a _ _; unfold State.isDevice; rw [hd]; rfl

theorem witness_GeneratorFrame :
    State.reset.status.busy = false ∧ (∃ t, exec .genBlock State.reset = .next t ∧ t.status.done = true) ∧
      ∃ t, exec .genBlockFixed State.reset = .next t ∧ t.status.done = true :=
  ⟨by decide, exists_of_nextIs (by decide +kernel), exists_of_nextIs (by decide +kernel)⟩

/-- A window of two bytes, the read of the second of which is answered BUSERR. -/
theorem witness_EngineStepsMeetThePseudocode :
    let s := buffer 0x1000 10 header (List.replicate 6 .ok ++ [.busErr])
    s.status.busy = false ∧ s.Answered ∧ s.slack = .untilIdle :=
  ⟨by decide, by unfold State.Answered; decide, by decide⟩

theorem witness_MaskHeaderIsItsOwnInverse :
    let s := buffer 0x1000 9 header []
    s.status.busy = false ∧ s.slack = .untilIdle ∧ s.AllOk ∧ s.BufferOrdinary ∧
      ∃ t, exec .maskHeader s = .next t ∧ (t.status.outcome == .ok) = true :=
  ⟨by decide, by decide, nofun, bufferOrdinary _ _ _ _, exists_of_nextIs (by decide +kernel)⟩

/-- Seven engine steps: the write of window byte 0 is in flight; the same with that write never answered, twelve steps; and the
write answered BUSERR, before FINISH and after it (log 32). -/
theorem witness_ResetLeavesAMaskedPrefix :
    (let s := { buffer 0x1000 10 header [] with slack := .steps 7 }
     s.status.busy = false ∧ s.slack = .steps 7 ∧ ∃ t, exec .maskHeader s = .next t ∧ (t.phase == .mWr) = true) ∧
    (let s := { buffer 0x1000 10 header [.ok, .ok, .ok, .ok, .ok, .never] with slack := .steps 12 }
     s.status.busy = false ∧ s.slack = .steps 12 ∧ ∃ t, exec .maskHeader s = .next t ∧ (t.phase == .mWr) = true) ∧
    (let s := { buffer 0x1000 10 header [.ok, .ok, .ok, .ok, .ok, .busErr] with slack := .steps 8 }
     s.status.busy = false ∧ s.slack = .steps 8 ∧ ∃ t, exec .maskHeader s = .next t ∧ (t.phase == .finish) = true) ∧
    (let s := { buffer 0x1000 10 header [.ok, .ok, .ok, .ok, .ok, .busErr] with slack := .steps 9 }
     s.status.busy = false ∧ s.slack = .steps 9 ∧ ∃ t, exec .maskHeader s = .next t ∧ (t.phase == .idle) = true) :=
  ⟨⟨by decide, by decide, exists_of_nextIs (by decide +kernel)⟩, ⟨by decide, by decide, exists_of_nextIs (by decide +kernel)⟩,
    ⟨by decide, by decide, exists_of_nextIs (by decide +kernel)⟩, by decide, by decide, exists_of_nextIs (by decide +kernel)⟩

/-- A state that is not reset's and meets the invariant: the MASK_HEADER just accepted. -/
theorem running_inv : Inv running := by
  refine ⟨⟨fun _ => by decide, by decide, by decide⟩, by decide, ⟨.none, ⟨rfl, rfl, rfl⟩, nofun⟩, ⟨rfl, rfl, rfl⟩, by decide,
    by decide, nofun⟩

theorem witness_EveryStepKeepsTheInvariant : Inv running ∧ ∃ t, step running = .next t ∧ (t.phase == .mMark) = true :=
  ⟨running_inv, exists_of_nextIs (by decide +kernel)⟩

theorem witness_NoStepFaults : Inv running := running_inv

/-- One state for each refusal. -/
theorem witness_OnlyDutyViolationsAreRefused :
    refusedAs (.portWidth 1) (step (withTurn State.reset (.rd { offset := 0x000, width := 1 } 1) .untilIdle)) = true ∧
    refusedAs (.portOutside 0x100) (step (withTurn State.reset (.rd { offset := 0x100, width := 4 } 1) .untilIdle)) = true ∧
    refusedAs (.portMisaligned 0x002) (step (withTurn State.reset (.rd { offset := 0x002, width := 4 } 1) .untilIdle)) = true ∧
    (let s := { State.reset with devices := [{ base := 0x1003, size := 1 }] }
     refusedAs (.hostDeviceAccess 0x1003) (step (withTurn s (.memRd 0x1003 1) .untilIdle)) = true ∧
     refusedAs (.deviceMemory 0x1003) (step { running with phase := .mMark, eng := { running.eng with markCount := 3 },
                                                           devices := s.devices }) = true) := by
  decide +kernel

/-- A run that completes, and one stopped at memory with side effects. -/
theorem witness_EveryCommandCompletes :
    Inv running ∧ running.Answered ∧ nextIs (fun t => t.phase == .idle) (runEngine 1038 running) = true ∧
      refusedAs (.deviceMemory 0x1008) (runEngine 1038 { running with devices := [{ base := 0x1008, size := 4 }] }) = true :=
  ⟨running_inv, by unfold State.Answered; decide, by decide +kernel, by decide +kernel⟩

theorem witness_WaitDoneEnds :
    let s := withTurn running .waitDone (.steps 0)
    Inv s ∧ s.Answered ∧ s.devices = [] ∧ s.host = waitDone (.steps 0) :: [] :=
  ⟨running_inv, by unfold State.Answered; decide, rfl, rfl⟩

/-- One state for each of the three phases that can hang. -/
theorem witness_UnansweredTransactionHangs :
    let s := { running with responses := [.never] }
    s.responses = .never :: [] ∧
      ({ s with phase := .mMark }.phase = .mMark ∧ s.eng.base.toNat + s.eng.markCount.toNat < 2 ^ 64 ∧
        s.isDevice (s.eng.base.toNat + s.eng.markCount.toNat) = false) ∧
      { s with phase := .mRd }.phase = .mRd ∧ { s with phase := .mWr }.phase = .mWr ∧ s.eng.windowAddr < 2 ^ 64 ∧
      s.isDevice s.eng.windowAddr = false := by decide

theorem witness_EngineIgnoresOperandRegisters : Reg.bufBaseHi.access = .rw ∧ (Reg.nonce 2).access = .rw := by decide

theorem witness_MaskHeaderIgnoresKeyNonceCounter :
    Reg.counter = .counter ∧ (∃ i, Reg.key 0 = .key i) ∧ ∃ i, Reg.nonce 2 = .nonce i := ⟨rfl, ⟨0, rfl⟩, 2, rfl⟩

theorem witness_IdleHiddenStateIsDead :
    let s := buffer 0x1000 9 header [.ok, .busErr]
    s.status.busy = false ∧ s.slack = .untilIdle ∧ s.Answered :=
  ⟨by decide, by decide, by unfold State.Answered; decide⟩

/-- A reset, the FINISH of a GEN_BLOCK, and a GEN_BLOCK accepted and completed in one step. -/
theorem witness_OnlyGeneratorCommandsWriteKs :
    (∃ t, step (withTurn { State.reset with ks := Vector.replicate 16 1 } .reset .untilIdle) = .next t ∧
      (t.ks != Vector.replicate 16 1) = true) ∧
    (∃ t, step { running with phase := .finish, eng := { running.eng with
        op := .instr .genBlock, res := { outcome := .ok, winLen := 0, bytesDone := 0, blocks := 1, ks := Vector.replicate 16 1 } } } =
      .next t ∧ (t.ks != running.ks) = true) ∧
    ∃ t, step (State.reset.withFetchWord 32 0x00000001) = .next t ∧ (t.ks != State.reset.ks) = true :=
  ⟨exists_of_nextIs (by decide +kernel), exists_of_nextIs (by decide +kernel), exists_of_nextIs (by decide +kernel)⟩

/-- A reset, the FINISH of a running command, and a GEN_BLOCK accepted and completed in one step. -/
theorem witness_ResultRegistersKeptUntilCompletion :
    (∃ t, step (withTurn { State.reset with blocks := 1 } .reset .untilIdle) = .next t ∧ (t.blocks != 1) = true) ∧
    (∃ t, step { running.raise .errBus 12 5 1 with host := [] } = .next t ∧
      (t.winLen != running.winLen && t.bytesDone != running.bytesDone && t.blocks != running.blocks) = true) ∧
    ∃ t, step (State.reset.withFetchWord 32 0x00000001) = .next t ∧ (t.blocks != State.reset.blocks) = true :=
  ⟨exists_of_nextIs (by decide +kernel), exists_of_nextIs (by decide +kernel), exists_of_nextIs (by decide +kernel)⟩

/-- A write to COUNTER, and a reset. -/
theorem witness_OnlyTheHostWritesCounter :
    (∃ t, step (withTurn State.reset (.wr { offset := 0x008, width := 4 } 5) .untilIdle) = .next t ∧ (t.counter != 0) = true) ∧
    ∃ t, step (withTurn { State.reset with counter := 5 } .reset .untilIdle) = .next t ∧ (t.counter != 5) = true :=
  ⟨exists_of_nextIs (by decide +kernel), exists_of_nextIs (by decide +kernel)⟩

/-- A MASK_HEADER about to write back its one window byte, which changes it from 0 to 1. -/
def writing : State :=
  { running with
    phase := .mWr
    eng := { running.eng with
      win := 1
      kbuf := keystream Config.fixedKey 0 Config.fixedNonce
      rbyte := (keystream Config.fixedKey 0 Config.fixedNonce)[0] ^^^ 1 } }

theorem writing_inv : Inv writing := by
  refine ⟨⟨fun _ => by decide, by decide, by decide⟩, by decide, ⟨.none, ⟨rfl, rfl, rfl⟩, nofun⟩, ⟨⟨⟨rfl, rfl, rfl, ?_⟩, ?_⟩, rfl⟩,
    by decide, by decide, nofun⟩ <;> decide

/-- The engine's write of a window byte, and a host write outside the buffer of a MASK_HEADER that runs. -/
theorem witness_OnlyWindowRaceAndHostWritesChangeMemory :
    (Inv writing ∧ ∃ t, step writing = .next t ∧ t.readByte 0x1008 ≠ writing.readByte 0x1008) ∧
    (let s := withTurn running (.memWr 0x2000 7) (.steps 0)
     Inv s ∧ ∃ t, step s = .next t ∧ (t.readByte 0x2000 != s.readByte 0x2000) = true) := by
  refine ⟨⟨writing_inv, _, rfl, ?_⟩, running_inv, exists_of_nextIs (by decide +kernel)⟩
  have cancel : ∀ b : Byte, b ^^^ 1 ^^^ b = 1 := by decide
  have h : writing.eng.maskedByte = 1 := cancel _
  show Memory.read (Memory.write writing.mem 0x1008 writing.eng.maskedByte) 0x1008 ≠ _
  rw [h]
  decide

/-- The clauses at the edges of the range: offsets 0, 3, 8, 0x207 are in it, offsets 4, 7, 0x208 and the byte before are not. A
host write and a host read of each kind of byte, and engine reads of raced bytes. -/
theorem witness_RaceDrawsFreeValues :
    (∀ a ∈ [0x1000, 0x1003, 0x1008, 0x1207], running.touchable a = true) ∧
    (∀ a ∈ [0x0FFF, 0x1004, 0x1007, 0x1208], running.touchable a = false) ∧
    (∀ op ∈ [HostOp.memWr 0x1207 7, .memRd 0x1207 1, .memWr 0x1208 7, .memRd 0x1208 1],
      (withTurn running op (.steps 3)).host = { op := op, slack := .steps 3 } :: []) ∧
    running.isDevice 0x1207 = false ∧ running.isDevice 0x1208 = false ∧
    (let s := { running with phase := .mMark, raced := [0x1000], eng := { running.eng with markCount := 0 } }
     (∃ t, engineStep s = .next t ∧ (t.phase == .mMark) = true) ∧ s.phase = .mMark ∧ s.eng.markCount.toNat < 4 ∧
       s.eng.base.toNat + s.eng.markCount.toNat ∈ s.raced ∧ s.responses.head? = none) ∧
    (let s := { running with phase := .mRd, raced := [0x1008], responses := [.ok] }
     (∃ t, engineStep s = .next t ∧ (t.phase == .mWr) = true) ∧ s.phase = .mRd ∧ s.eng.windowAddr ∈ s.raced ∧
       s.responses.head? = some .ok) :=
  ⟨by decide, by decide, by decide, by decide, by decide,
    ⟨exists_of_nextIs (by decide +kernel), by decide, by decide, by decide, by decide⟩,
    exists_of_nextIs (by decide +kernel), by decide, by decide, by decide⟩

end Sys2Proof.Tests
end

namespace Sys2Proof.Machine

/-! The register map (R23, R35). -/

/-- R35's list of the reserved offsets. The block ends with the last range, so only its start is named. -/
def ReservedOffset (o : Nat) : Prop :=
  o = 0x018 ∨ o = 0x01C ∨ o = 0x04C ∨ (0x060 ≤ o ∧ o ≤ 0x07C) ∨ 0x0C0 ≤ o

theorem Reg.ofOffset_offset (r : Reg) : Reg.ofOffset r.offset = some r := by
  cases r with
  | key i => revert i; decide
  | nonce i => revert i; decide
  | ks i => revert i; decide
  | _ => rfl

theorem ReservedOffset.ofOffset_eq_none {o : Nat} (h : ReservedOffset o) : Reg.ofOffset o = none := by
  unfold ReservedOffset at h
  unfold Reg.ofOffset
  repeat rw [if_neg (by omega)]

theorem ReservedOffset.offset_ne {o : Nat} (h : ReservedOffset o) (r : Reg) : r.offset ≠ o := by
  rintro rfl
  simpa [Reg.ofOffset_offset] using h.ofOffset_eq_none

/-- The registers of R23 fill every aligned offset of the block that R35 does not list. -/
theorem exists_reg_of_not_reserved {o : Nat} (inBlock : o < 0x100) (aligned : o % 4 = 0) (h : ¬ ReservedOffset o) :
    ∃ r : Reg, r.offset = o := by
  unfold ReservedOffset at h
  have ranges : o = 0x000 ∨ o = 0x004 ∨ o = 0x008 ∨ o = 0x00C ∨ o = 0x010 ∨ o = 0x014 ∨ (0x020 ≤ o ∧ o < 0x040) ∨
      (0x040 ≤ o ∧ o < 0x04C) ∨ o = 0x050 ∨ o = 0x054 ∨ o = 0x058 ∨ o = 0x05C ∨ (0x080 ≤ o ∧ o < 0x0C0) := by omega
  rcases ranges with rfl | rfl | rfl | rfl | rfl | rfl | key | nonce | rfl | rfl | rfl | rfl | ks
  · exact ⟨.cmd, rfl⟩
  · exact ⟨.status, rfl⟩
  · exact ⟨.counter, rfl⟩
  · exact ⟨.winLen, rfl⟩
  · exact ⟨.bytesDone, rfl⟩
  · exact ⟨.blocks, rfl⟩
  · exact ⟨.key ⟨(o - 0x020) / 4, by omega⟩, by simp only [Reg.offset]; omega⟩
  · exact ⟨.nonce ⟨(o - 0x040) / 4, by omega⟩, by simp only [Reg.offset]; omega⟩
  · exact ⟨.bufBaseLo, rfl⟩
  · exact ⟨.bufBaseHi, rfl⟩
  · exact ⟨.bufSizeLo, rfl⟩
  · exact ⟨.bufSizeHi, rfl⟩
  · exact ⟨.ks ⟨(o - 0x080) / 4, by omega⟩, by simp only [Reg.offset]; omega⟩

theorem forall_offset_ne_iff_reserved {o : Nat} (inBlock : o < 0x100) (aligned : o % 4 = 0) :
    (∀ r : Reg, r.offset ≠ o) ↔ ReservedOffset o := by
  refine ⟨fun noReg => ?_, ReservedOffset.offset_ne⟩
  by_contra h
  obtain ⟨r, hr⟩ := exists_reg_of_not_reserved inBlock aligned h
  exact noReg r hr

theorem ReservedOffset.readOffset {o : Nat} (h : ReservedOffset o) (s : State) : s.readOffset o = 0 := by
  simp [State.readOffset, h.ofOffset_eq_none]

theorem ReservedOffset.writeOffset {o : Nat} (h : ReservedOffset o) (s : State) (v : Word) : s.writeOffset o v = s := by
  simp [State.writeOffset, h.ofOffset_eq_none]

/-! The reserved bits of STATUS (R25, R35). -/

theorem Status.toWord_eq_zero_append (t : Status) :
    t.toWord = (0 : BitVec 24) ++ (t.outcome.code ++ BitVec.ofBool t.cmdDropped ++ BitVec.ofBool t.diag ++
      BitVec.ofBool t.done ++ BitVec.ofBool t.busy) := by
  simp only [Status.toWord, BitVec.append_assoc, BitVec.cast_eq]

theorem Status.toWord_reserved_bits (t : Status) : t.toWord.extractLsb' 8 24 = 0 := by
  rw [Status.toWord_eq_zero_append]
  exact BitVec.extractLsb'_append_eq_left

/-- Of the written word only bit 3 counts (R25), and the mask keeps it. -/
theorem Status.hostWrite_and_low_byte (t : Status) (v : Word) : t.hostWrite (v &&& 0x000000FF) = t.hostWrite v := by
  have bit3 : (v &&& 0x000000FF).getLsbD 3 = v.getLsbD 3 := by simp
  rw [Status.hostWrite, Status.hostWrite, bit3]

theorem State.writeReg_status_and_low_byte (s : State) (v : Word) :
    s.writeReg .status (v &&& 0x000000FF) = s.writeReg .status v := by
  simp only [State.writeReg, Status.hostWrite_and_low_byte]

/-- Settles O11: R35's offsets are those at which no register stands, and STATUS has no reserved bit that the port reads as 1
or writes. -/
theorem reservedOffsetsReadZeroIgnoreWrites : Obligations.ReservedOffsetsReadZeroIgnoreWrites := by
  intro s v
  refine ⟨fun o inBlock aligned => ?_, s.status.toWord_reserved_bits, (s.writeReg_status_and_low_byte v).symm⟩
  have reserved := forall_offset_ne_iff_reserved inBlock aligned
  exact ⟨reserved, fun noReg => ⟨(reserved.mp noReg).readOffset s, (reserved.mp noReg).writeOffset s v⟩⟩

end Sys2Proof.Machine

namespace Sys2Proof.Machine

/-! The command word (R90 to R93). -/

/-- RSVD and OP are all of a command word (R90). -/
theorem rsvdField_append_opField (w : Word) : rsvdField w ++ opField w = w :=
  (BitVec.extractLsb'_append_extractLsb'_eq_extractLsb' rfl).trans BitVec.extractLsb'_eq_self

theorem eq_encode_of_fields {w : Word} {i : Instr} (rsvd : rsvdField w = 0) (op : opField w = i.opcode) : w = encode i := by
  rw [← rsvdField_append_opField w, rsvd, op, encode]

theorem fields_of_decode_eq_instr {w : Word} {i : Instr} (h : decode w = .instr i) :
    rsvdField w = 0 ∧ opField w = i.opcode := by
  unfold decode at h
  split_ifs at h with rsvd op op op
  all_goals
    cases h
    exact ⟨not_not.mp rsvd, op⟩

theorem decode_encode (i : Instr) : decode (encode i) = .instr i := by cases i <;> rfl

theorem decode_eq_instr_iff {w : Word} {i : Instr} : decode w = .instr i ↔ w = encode i := by
  constructor
  · intro h
    obtain ⟨rsvd, op⟩ := fields_of_decode_eq_instr h
    exact eq_encode_of_fields rsvd op
  · rintro rfl
    exact decode_encode i

theorem exists_decode_eq_bad_iff {w : Word} : (∃ why, decode w = .bad why) ↔ ∀ i, w ≠ encode i := by
  simp only [ne_eq, ← decode_eq_instr_iff]
  cases decode w with
  | instr i => simp
  | bad why => simp

/-- R91, R102: the words of the three commands. -/
theorem forall_ne_encode_iff {w : Word} :
    (∀ i, w ≠ encode i) ↔ w ≠ 0x00000001 ∧ w ≠ 0x00000002 ∧ w ≠ 0x00000003 := by
  refine ⟨fun h => ⟨h .genBlock, h .genBlockFixed, h .maskHeader⟩, fun ⟨h1, h2, h3⟩ i => ?_⟩
  cases i with
  | genBlock => exact h1
  | genBlockFixed => exact h2
  | maskHeader => exact h3

/-- Settles O2: RSVD and OP are the whole word (R90), so the fields that `decode` asks for fix it. -/
theorem decodeMeetsExactlyTheEncodedWord : Obligations.DecodeMeetsExactlyTheEncodedWord :=
  ⟨fun _ _ => decode_eq_instr_iff, fun _ => exists_decode_eq_bad_iff.trans forall_ne_encode_iff⟩

end Sys2Proof.Machine

namespace Sys2Proof.Machine

/-! Byte order (R11, R60) and the operands (R96, R120). -/

theorem getElem_le32StoreAll {n : Nat} (w : Vector Word n) {j : Nat} (h : j < 4 * n) :
    (le32StoreAll w)[j] = byteOf (w[j / 4]'(by omega)) (j % 4) := by
  simp [le32StoreAll]

/-- le32_store, byte by byte: byte `k` of word `i`. -/
theorem getElem_le32StoreAll_word {n : Nat} (w : Vector Word n) {i k : Nat} (hi : i < n) (hk : k < 4) :
    (le32StoreAll w)[4 * i + k]'(by omega) = byteOf w[i] k := by
  have word : (4 * i + k) / 4 = i := by omega
  have byte : (4 * i + k) % 4 = k := by omega
  simp only [getElem_le32StoreAll, word, byte]

/-- le32 puts the bytes of a word back in their places. -/
theorem le32_byteOf (v : Word) : le32 (byteOf v 0) (byteOf v 1) (byteOf v 2) (byteOf v 3) = v := by
  ext i hi
  simp only [le32, byteOf, BitVec.getElem_or, BitVec.getElem_shiftLeft, BitVec.getElem_setWidth, BitVec.getLsbD_extractLsb']
  have place : i < 8 ∨ (8 ≤ i ∧ i < 16) ∨ (16 ≤ i ∧ i < 24) ∨ 24 ≤ i := by omega
  rcases place with h | h | h | h <;> grind

/-- le32_load undoes le32_store (R11). -/
theorem le32Load_le32StoreAll {n : Nat} (w : Vector Word n) {i : Nat} (hi : i < n) :
    le32Load (le32StoreAll w) (4 * i) (by omega) = w[i] := by
  have byte0 : (le32StoreAll w)[4 * i] = byteOf w[i] 0 := getElem_le32StoreAll_word w hi (by decide : 0 < 4)
  have byte (k : Nat) (hk : k < 4) := getElem_le32StoreAll_word w hi hk
  rw [le32Load, byte0, byte 1 (by decide), byte 2 (by decide), byte 3 (by decide), le32_byteOf]

theorem initState_key (key : Vector Byte 32) (c : Word) (nonce : Vector Byte 12) (i : Fin 8) :
    (initState key c nonce)[4 + i.val] = le32Load key (4 * i.val) (by omega) := by
  fin_cases i <;> rfl

theorem initState_nonce (key : Vector Byte 32) (c : Word) (nonce : Vector Byte 12) (i : Fin 3) :
    (initState key c nonce)[13 + i.val] = le32Load nonce (4 * i.val) (by omega) := by
  fin_cases i <;> rfl

/-- Settles O21: the latches store the registers' words little-endian, and the block function loads them back. -/
theorem operandWordsAreTheRegisters : Obligations.OperandWordsAreTheRegisters := by
  intro s c
  refine ⟨rfl, rfl, fun i => ?_, fun i => ?_, fun i k => ?_, fun i k => ?_⟩
  · exact (initState_key _ _ _ i).trans (le32Load_le32StoreAll s.key i.isLt)
  · exact (initState_nonce _ _ _ i).trans (le32Load_le32StoreAll s.nonce i.isLt)
  · exact getElem_le32StoreAll_word s.key i.isLt k.isLt
  · exact getElem_le32StoreAll_word s.nonce i.isLt k.isLt

end Sys2Proof.Machine

namespace Sys2Proof.Machine

/-! A CMD write, accepted or dropped (R94, R95). -/

/-- Acceptance (R94) of the command that a written word decodes to. -/
def State.acceptCommand (s : State) : Command → State
  | .instr .genBlock => s.acceptGenBlock
  | .instr .genBlockFixed => s.acceptGenBlockFixed
  | .instr .maskHeader => s.acceptMaskHeader
  | .bad why => s.acceptBad why

theorem exec_eq_issue (i : Instr) (s : State) : exec i s = advance (s.issue (s.acceptCommand (.instr i))) := by cases i <;> rfl

theorem execBad_eq_issue (why : BadWord) (s : State) : execBad why s = advance (s.issue (s.acceptCommand (.bad why))) := rfl

@[simp] theorem State.acceptCommand_status (s : State) (c : Command) : (s.acceptCommand c).status = s.status.accepted := by
  rcases c with (_ | _ | _) | why <;> rfl

theorem State.issue_of_busy {s : State} (accepted : State) (h : s.status.busy = true) : s.issue accepted = s.dropCommand := by
  simp [State.issue, h]

theorem State.issue_of_not_busy {s : State} (accepted : State) (h : s.status.busy = false) : s.issue accepted = accepted := by
  simp [State.issue, h]

/-- Acceptance leaves CMD_DROPPED alone (R94), a drop sets it (R95). -/
theorem State.issue_cmdDropped (s : State) (c : Command) :
    (s.issue (s.acceptCommand c)).status.cmdDropped = (s.status.busy || s.status.cmdDropped) := by
  cases busy : s.status.busy with
  | true => simp [State.issue_of_busy _ busy, Status.withDrop]
  | false => simp [State.issue_of_not_busy _ busy, Status.accepted]

/-! The step, by what the next move is. -/

/-- What a next move comes to: a command word is accepted or dropped (R94, R95), then the engine runs; anything else is done. -/
def Fetched.result : Fetched → Result
  | .command w t => advance (t.issue (t.acceptCommand (decode w)))
  | .done o => o

theorem step_eq_result (s : State) : step s = (fetch s).result := by
  unfold step
  cases fetch s with
  | command w t =>
    simp only [Fetched.result]
    cases decode w with
    | instr i => exact exec_eq_issue i t
    | bad why => exact execBad_eq_issue why t
  | done o => rfl

theorem step_of_commandTurn {s : State} {w : Word} {k : Slack} {rest : List HostTurn} (h : s.host = commandTurn w k :: rest) :
    step s = advance (State.issue { s with host := rest, slack := k }
      (State.acceptCommand { s with host := rest, slack := k } (decode w))) := by
  rw [step_eq_result, fetch, h]
  rfl

/-! Register writes (R23, R98). -/

theorem Reg.ofOffset_eq_some_iff {o : Nat} (aligned : o % 4 = 0) (r : Reg) : Reg.ofOffset o = some r ↔ o = r.offset := by
  constructor
  · intro h
    by_cases reserved : ReservedOffset o
    · simp [reserved.ofOffset_eq_none] at h
    · have inBlock : o < 0x100 := by unfold ReservedOffset at reserved; omega
      obtain ⟨q, rfl⟩ := exists_reg_of_not_reserved inBlock aligned reserved
      rw [Reg.ofOffset_offset, Option.some.injEq] at h
      rw [h]
  · rintro rfl
    exact Reg.ofOffset_offset r

theorem State.writeReg_status_of_ne (s : State) {r : Reg} (v : Word) (h : r ≠ .status) :
    (s.writeReg r v).status = s.status := by
  cases r with
  | status => exact absurd rfl h
  | _ => rfl

theorem State.writeOffset_offset (s : State) (r : Reg) (v : Word) : s.writeOffset r.offset v = s.writeReg r v := by
  rw [State.writeOffset, Reg.ofOffset_offset]

/-- Of all the offsets of the port only that of STATUS writes STATUS (R25, R98). -/
theorem State.writeOffset_status_of_ne (s : State) {o : Nat} (v : Word) (aligned : o % 4 = 0) (h : o ≠ Reg.offset .status) :
    (s.writeOffset o v).status = s.status := by
  unfold State.writeOffset
  cases found : Reg.ofOffset o with
  | none => rfl
  | some r =>
    refine s.writeReg_status_of_ne v ?_
    rintro rfl
    exact h ((Reg.ofOffset_eq_some_iff aligned _).mp found)

/-! Host turns. -/

theorem Status.toWord_bit0 (t : Status) : t.toWord.getLsbD 0 = t.busy := by
  rw [Status.toWord, BitVec.getLsbD_append]
  simp

/-- R101: a poll looks at BUSY. -/
theorem State.poll_eq (s : State) (turn : HostTurn) :
    s.poll turn =
      if s.status.busy then advanceFair { s.setTemp 0 s.status.toWord with host := turn :: s.host }
      else advance (s.setTemp 0 s.status.toWord) := by
  have polled : (s.setTemp 0 s.status.toWord).temp 0 = s.status.toWord := cellsRead_write_self _ _ _ _
  simp only [State.poll, State.readReg, polled, Status.toWord_bit0]
  rfl

/-- What a host turn comes to: the operation `op`, in the state `s` from which the turn has been taken. -/
inductive HostMove (s : State) : HostOp → Result → Prop where
  | command (a : PortAccess) (w : Word) : a.wellFormed = true → a.offset = 0x000 →
      HostMove s (.wr a w) (advance (s.issue (s.acceptCommand (decode w))))
  | write (a : PortAccess) (v : Word) : a.wellFormed = true → a.offset ≠ 0x000 →
      HostMove s (.wr a v) (advance (s.writeOffset a.offset v))
  | writeRefused (a : PortAccess) (v : Word) (r : Refusal) : portRefusal a = some r → HostMove s (.wr a v) (.refused r)
  | read (a : PortAccess) (i : Nat) : a.wellFormed = true →
      HostMove s (.rd a i) (advance (s.setTemp i (s.readOffset a.offset)))
  | readRefused (a : PortAccess) (i : Nat) (r : Refusal) : portRefusal a = some r → HostMove s (.rd a i) (.refused r)
  | pollAgain : s.status.busy = true →
      HostMove s .waitDone
        (advanceFair { s.setTemp 0 s.status.toWord with host := { op := .waitDone, slack := s.slack } :: s.host })
  | pollDone : s.status.busy = false → HostMove s .waitDone (advance (s.setTemp 0 s.status.toWord))
  | memWrite (a : DWord) (v : Byte) : s.isDevice a.toNat = false → HostMove s (.memWr a v) (advance (s.hostStore a.toNat v))
  | memWriteRefused (a : DWord) (v : Byte) : s.isDevice a.toNat = true →
      HostMove s (.memWr a v) (.refused (.hostDeviceAccess a.toNat))
  | memRead (a : DWord) (i : Nat) : s.isDevice a.toNat = false → HostMove s (.memRd a i) (advance (s.hostLoad a.toNat i))
  | memReadRefused (a : DWord) (i : Nat) : s.isDevice a.toNat = true →
      HostMove s (.memRd a i) (.refused (.hostDeviceAccess a.toNat))
  | reset : HostMove s .reset (advance s.resetBlock)
  | pause : HostMove s .pause (advance s)

theorem PortAccess.aligned_of_wellFormed {a : PortAccess} (h : a.wellFormed = true) : a.offset % 4 = 0 := by
  simp only [PortAccess.wellFormed, PortAccess.aligned, Bool.and_eq_true, beq_iff_eq] at h
  exact h.2

theorem hostMove_hostTurn (s : State) (op : HostOp) : HostMove s op (hostTurn s { op := op, slack := s.slack }).result := by
  cases op with
  | wr a v =>
    cases refusal : portRefusal a with
    | some r => simpa only [hostTurn, refusal] using .writeRefused a v r refusal
    | none =>
      have wf := portRefusal_eq_none.mp refusal
      have cmd := Reg.ofOffset_eq_some_iff (PortAccess.aligned_of_wellFormed wf) .cmd
      by_cases offset : a.offset = 0x000
      · simpa only [hostTurn, refusal, if_pos (cmd.mpr offset)] using .command a v wf offset
      · simpa only [hostTurn, refusal, if_neg (mt cmd.mp offset)] using .write a v wf offset
  | rd a i =>
    cases refusal : portRefusal a with
    | some r => simpa only [hostTurn, refusal] using .readRefused a i r refusal
    | none => simpa only [hostTurn, refusal] using .read a i (portRefusal_eq_none.mp refusal)
  | waitDone =>
    simp only [hostTurn, State.poll_eq]
    split_ifs with busy
    · exact .pollAgain busy
    · exact .pollDone (eq_false_of_ne_true busy)
  | memWr a v =>
    simp only [hostTurn]
    split_ifs with device
    · exact .memWriteRefused a v device
    · exact .memWrite a v (eq_false_of_ne_true device)
  | memRd a i =>
    simp only [hostTurn]
    split_ifs with device
    · exact .memReadRefused a i device
    · exact .memRead a i (eq_false_of_ne_true device)
  | reset => exact .reset
  | pause => exact .pause

/-- A step that takes a host turn does one host move. -/
theorem step_hostMove {s : State} {op : HostOp} {k : Slack} {rest : List HostTurn}
    (h : s.host = { op := op, slack := k } :: rest) : HostMove { s with host := rest, slack := k } op (step s) := by
  rw [step_eq_result, fetch, h]
  exact hostMove_hostTurn { s with host := rest, slack := k } op

/-! CMD_DROPPED (R25, R95, R208). -/

theorem advance_keeps {s t : State} (h : advance s = .next t) : EngineKeeps s t := runEngine_keepsHost h

theorem advanceFair_keeps {s t : State} (h : advanceFair s = .next t) : EngineKeeps s t := runEngine_keepsHost h

@[simp] theorem State.hostStore_status (s : State) (a : Nat) (v : Byte) : (s.hostStore a v).status = s.status := by
  unfold State.hostStore
  split <;> rfl

@[simp] theorem State.hostLoad_status (s : State) (a i : Nat) : (s.hostLoad a i).status = s.status := by
  unfold State.hostLoad
  split <;> rfl

/-- Only a reset and the W1C bit of STATUS clear CMD_DROPPED. -/
theorem HostMove.cmdDropped_cleared {s t : State} {op : HostOp} {o : Result} (h : HostMove s op o) (next : o = .next t)
    (before : s.status.cmdDropped = true) (after : t.status.cmdDropped = false) :
    op = .reset ∨ ∃ a v, op = .wr a v ∧ a.offset = 0x004 ∧ v.getLsbD 3 = true := by
  have kept {u : State} (engine : EngineKeeps u t) (host : u.status = s.status) : False := by
    simp [engine.cmdDropped, host, before] at after
  cases h with
  | command a w =>
    have issued := (advance_keeps next).cmdDropped
    simp [State.issue_cmdDropped, before, after] at issued
  | write a v wf =>
    by_cases offset : a.offset = Reg.offset .status
    · refine .inr ⟨a, v, rfl, offset, ?_⟩
      have written := (advance_keeps next).cmdDropped
      rw [offset, State.writeOffset_offset s .status v, after] at written
      simpa [State.writeReg, Status.hostWrite, before] using written
    · exact (kept (advance_keeps next) (s.writeOffset_status_of_ne v (PortAccess.aligned_of_wellFormed wf) offset)).elim
  | read => exact (kept (advance_keeps next) rfl).elim
  | pollAgain => exact (kept (advanceFair_keeps next) rfl).elim
  | pollDone => exact (kept (advance_keeps next) rfl).elim
  | memWrite => exact (kept (advance_keeps next) (State.hostStore_status ..)).elim
  | memRead => exact (kept (advance_keeps next) (State.hostLoad_status ..)).elim
  | reset => exact .inl rfl
  | pause => exact (kept (advance_keeps next) rfl).elim
  | writeRefused | readRefused | memWriteRefused | memReadRefused => cases next

theorem step_of_commandTurn_of_busy {s : State} {w : Word} {k : Slack} {rest : List HostTurn}
    (h : s.host = commandTurn w k :: rest) (busy : s.status.busy = true) :
    step s = advance (State.dropCommand { s with host := rest, slack := k }) := by
  rw [step_of_commandTurn h, State.issue_of_busy _ (by exact busy)]

/-- Settles O20: the drop is the whole of R95's effect, and of what a step can do (`EngineKeeps`, `HostMove`) only a reset and a
STATUS write clear CMD_DROPPED. -/
theorem commandWhileBusyIsDropped : Obligations.CommandWhileBusyIsDropped := by
  refine ⟨fun s w rest busy host => step_of_commandTurn_of_busy host busy, fun s t before next after => ?_⟩
  cases host : s.host with
  | nil =>
    rw [step_of_no_turn host] at next
    have kept := (engineStep_move next).keeps.cmdDropped
    simp [before, after] at kept
  | cons turn rest =>
    obtain ⟨op, k⟩ := turn
    rcases (step_hostMove host).cmdDropped_cleared next before after with rfl | ⟨a, v, rfl, offset, bit⟩
    · exact .inl ⟨k, rest, rfl⟩
    · exact .inr ⟨a, v, k, rest, rfl, offset, bit⟩

end Sys2Proof.Machine

namespace Sys2Proof.Machine

/-! The block function (R120, R123 to R126). -/

/-- Each output word is the word of the twenty rounds plus that of the initial state (R120, R125). -/
theorem getElem_blockWords (key : Vector Byte 32) (c : Word) (nonce : Vector Byte 12) {i : Nat} (h : i < 16) :
    (blockWords key c nonce)[i] = (doubleRounds 10 (initState key c nonce))[i] + (initState key c nonce)[i] := by
  simp only [blockWords, feedForward, Config.doubleRounds, Vector.getElem_ofFn, Fin.getElem_fin]

/-- Settles O25: little-endian storing (R126) of the fed-forward words, and the rounds as they are defined. -/
theorem keystreamByteSerialisation : Obligations.KeystreamByteSerialisation := by
  refine ⟨fun key c nonce j => ?_, fun x => ?_, fun n x => ?_, fun _ => rfl, fun _ => rfl⟩
  · have stored : (keystream key c nonce)[j] = byteOf ((blockWords key c nonce)[j.val / 4]) (j.val % 4) :=
      getElem_le32StoreAll _ j.isLt
    rw [stored, getElem_blockWords, byteOf]
  · rw [doubleRounds]
  · rw [doubleRounds]

theorem initState_sigma (key : Vector Byte 32) (c : Word) (nonce : Vector Byte 12) {i : Nat} (h : i < 4) :
    (initState key c nonce)[i] = Config.sigma[i] := by
  interval_cases i <;> rfl

/-- Words 0 to 3 of the initial state store as the sixteen bytes of SIGMA's text (R120, R37). -/
theorem initState_sigma_bytes (key : Vector Byte 32) (c : Word) (nonce : Vector Byte 12) (j : Fin 16) :
    ((initState key c nonce)[j.val / 4]).extractLsb' (8 * (j.val % 4)) 8 =
      (#v[0x65, 0x78, 0x70, 0x61, 0x6e, 0x64, 0x20, 0x33, 0x32, 0x2d, 0x62, 0x79, 0x74, 0x65, 0x20, 0x6b] : Vector Byte 16)[j] := by
  rw [initState_sigma key c nonce (by omega : j.val / 4 < 4)]
  revert j
  decide

/-- Settles O22: the key and nonce words are `initState_key` and `initState_nonce`, the feed-forward `getElem_blockWords`. -/
theorem initialStateWords : Obligations.InitialStateWords := fun key c nonce =>
  ⟨rfl, rfl, rfl, rfl, rfl, initState_key key c nonce, initState_nonce key c nonce, initState_sigma_bytes key c nonce,
    fun i => getElem_blockWords key c nonce i.isLt⟩

/-! One line of R122: what it writes, and what it leaves. -/

theorem mixLine_sum (x : Vector Word 16) {a d : Fin 16} (b : Fin 16) (n : Nat) (ad : a ≠ d) :
    (mixLine x a b d n)[a] = x[a] + x[b] := by
  have hda : d.val ≠ a.val := Fin.val_ne_of_ne ad.symm
  simp [mixLine, Vector.getElem_set_ne, hda]

theorem mixLine_rotated (x : Vector Word 16) {a d : Fin 16} (b : Fin 16) (n : Nat) (ad : a ≠ d) :
    (mixLine x a b d n)[d] = rotl32 (x[d] ^^^ (x[a] + x[b])) n := by
  have had : a.val ≠ d.val := Fin.val_ne_of_ne ad
  simp [mixLine, Vector.getElem_set_ne, had]

theorem mixLine_frame (x : Vector Word 16) {a d j : Fin 16} (b : Fin 16) (n : Nat) (ja : j ≠ a) (jd : j ≠ d) :
    (mixLine x a b d n)[j] = x[j] := by
  have haj : a.val ≠ j.val := Fin.val_ne_of_ne ja.symm
  have hdj : d.val ≠ j.val := Fin.val_ne_of_ne jd.symm
  simp [mixLine, Vector.getElem_set_ne, haj, hdj]

/-- A line neither reads nor writes a word that it does not name. -/
theorem mixLine_set (x : Vector Word 16) {a b d j : Fin 16} (n : Nat) (v : Word) (ja : j ≠ a) (jb : j ≠ b) (jd : j ≠ d) :
    mixLine (x.set j v) a b d n = (mixLine x a b d n).set j v := by
  have hja : j.val ≠ a.val := Fin.val_ne_of_ne ja
  have hjb : j.val ≠ b.val := Fin.val_ne_of_ne jb
  have hjd : j.val ≠ d.val := Fin.val_ne_of_ne jd
  simp [mixLine, Vector.getElem_set_ne, Vector.set_comm _ _ hja, Vector.set_comm _ _ hjd, hja, hjb, hjd]

/-! The quarter-round (R122): it neither reads nor writes a word that it does not name. -/

theorem quarterRound_frame (x : Vector Word 16) {a b c d j : Fin 16} (h : j ∉ [a, b, c, d]) :
    (quarterRound x a b c d)[j] = x[j] := by
  simp only [List.mem_cons, List.not_mem_nil, or_false, not_or] at h
  obtain ⟨ja, jb, jc, jd⟩ := h
  simp only [quarterRound, mixLine_frame _ _ _ ja jd, mixLine_frame _ _ _ jc jb]

theorem quarterRound_set (x : Vector Word 16) {a b c d j : Fin 16} (v : Word) (h : j ∉ [a, b, c, d]) :
    quarterRound (x.set j v) a b c d = (quarterRound x a b c d).set j v := by
  simp only [List.mem_cons, List.not_mem_nil, or_false, not_or] at h
  obtain ⟨ja, jb, jc, jd⟩ := h
  simp only [quarterRound, mixLine_set _ _ _ ja jb jd, mixLine_set _ _ _ jc jd jb]

/-- Settles O23: of the four lines, two write words `a` and `d` and two write `c` and `b`, so each reads what the lines before it
wrote. -/
theorem quarterRoundOperations : Obligations.QuarterRoundOperations := by
  intro x a b c d ab ac ad bc bd cd
  have keepsB (y : Vector Word 16) (n : Nat) : (mixLine y a b d n)[b] = y[b] := mixLine_frame y b n ab.symm bd
  have keepsC (y : Vector Word 16) (n : Nat) : (mixLine y a b d n)[c] = y[c] := mixLine_frame y b n ac.symm cd
  have keepsA (y : Vector Word 16) (n : Nat) : (mixLine y c d b n)[a] = y[a] := mixLine_frame y d n ac ab
  have keepsD (y : Vector Word 16) (n : Nat) : (mixLine y c d b n)[d] = y[d] := mixLine_frame y d n cd.symm bd.symm
  refine ⟨?_, ?_, ?_, ?_, fun j ja jb jc jd => quarterRound_frame x (by simp [ja, jb, jc, jd])⟩ <;>
    simp only [quarterRound, mixLine_sum _ _ _ ad, mixLine_rotated _ _ _ ad, mixLine_sum _ _ _ bc.symm,
      mixLine_rotated _ _ _ bc.symm, keepsA, keepsB, keepsC, keepsD]

/-! Quarter-rounds on disjoint indices (R130). -/

/-- A quarter-round commutes with a line of whose words it names none. -/
theorem quarterRound_mixLine (x : Vector Word 16) {a b d a' b' c' d' : Fin 16} (n : Nat)
    (ha : a ∉ [a', b', c', d']) (hb : b ∉ [a', b', c', d']) (hd : d ∉ [a', b', c', d']) :
    quarterRound (mixLine x a b d n) a' b' c' d' = mixLine (quarterRound x a' b' c' d') a b d n := by
  have keepsA := quarterRound_frame x ha
  have keepsB := quarterRound_frame x hb
  have keepsD := quarterRound_frame x hd
  simp only [Fin.getElem_fin] at keepsA keepsB keepsD
  simp only [mixLine, quarterRound_set _ _ ha, quarterRound_set _ _ hd, Fin.getElem_fin,
    Vector.getElem_set, keepsA, keepsB, keepsD]

theorem quarterRound_comm_of_disjoint (x : Vector Word 16) {a b c d a' b' c' d' : Fin 16}
    (h : ∀ i ∈ [a, b, c, d], i ∉ [a', b', c', d']) :
    quarterRound (quarterRound x a b c d) a' b' c' d' = quarterRound (quarterRound x a' b' c' d') a b c d := by
  have ha := h a (by simp)
  have hb := h b (by simp)
  have hc := h c (by simp)
  have hd := h d (by simp)
  rw [quarterRound.eq_def x a b c d, quarterRound.eq_def (quarterRound x a' b' c' d') a b c d]
  simp only [quarterRound_mixLine _ _ ha hb hd, quarterRound_mixLine _ _ hc hd hb]

/-- The quarter-round on a quadruple of indices, as a round lists them. -/
def quarterAt (x : Vector Word 16) (q : Fin 16 × Fin 16 × Fin 16 × Fin 16) : Vector Word 16 :=
  quarterRound x q.1 q.2.1 q.2.2.1 q.2.2.2

/-- Quarter-rounds any two of which are the same or disjoint give the same state in any order. -/
theorem foldl_quarterAt_of_perm {l round : List (Fin 16 × Fin 16 × Fin 16 × Fin 16)} (p : l.Perm round)
    (disjoint : ∀ q ∈ round, ∀ r ∈ round,
      q = r ∨ ∀ i ∈ [q.1, q.2.1, q.2.2.1, q.2.2.2], i ∉ [r.1, r.2.1, r.2.2.1, r.2.2.2])
    (x : Vector Word 16) : l.foldl quarterAt x = round.foldl quarterAt x := by
  refine p.foldl_eq' (fun q hq r hr z => ?_) x
  rcases disjoint q (p.mem_iff.mp hq) r (p.mem_iff.mp hr) with rfl | apart
  · rfl
  · exact quarterRound_comm_of_disjoint z apart

/-- Settles O24: a quarter-round commutes with each line of a disjoint one, and the four of a round are pairwise disjoint. -/
theorem disjointQuarterRoundsCommute : Obligations.DisjointQuarterRoundsCommute :=
  ⟨fun x _ _ _ _ _ _ _ _ h => quarterRound_comm_of_disjoint x h,
    fun x _ p => foldl_quarterAt_of_perm p (by decide) x,
    fun x _ p => foldl_quarterAt_of_perm p (by decide) x⟩

end Sys2Proof.Machine

namespace Sys2Proof.Machine

/-! A MASK_HEADER and the marker (R156, R171): what an engine move leaves alone, and what a marker byte read can lead to. -/

/-- Only FINISH writes STATUS, or empties the list of raced bytes, and an IDLE engine stays IDLE. -/
theorem EngineMove.finish_or_keeps {s t : State} (h : EngineMove s t) :
    t = s.finish ∨ (t.status = s.status ∧ t.raced = s.raced ∧ (s.phase = .idle → t.phase = .idle)) := by
  cases h with
  | finish => exact .inl rfl
  | idle | never => exact .inr ⟨rfl, rfl, id⟩
  | mCheck phase =>
    obtain ⟨e, p, checked⟩ := stepMCheck_eq s
    exact .inr ⟨by rw [checked], by rw [checked], by simp [phase]⟩
  | mMark b n phase =>
    obtain ⟨e, p, read⟩ := markRead_eq { s with responses := s.responses.tail, freeCtr := n } b
    exact .inr ⟨by rw [read], by rw [read], by simp [phase]⟩
  | mWr phase =>
    obtain ⟨e, p, done⟩ := byteDone_eq (State.stored { s with responses := s.responses.tail } s.eng.windowAddr s.eng.maskedByte)
    exact .inr ⟨by rw [done]; rfl, by rw [done]; rfl, by simp [phase]⟩
  | gRun phase | mKgen phase | mMarkErr _ phase | mRd _ _ phase | mRdErr _ phase | mWrErr _ phase =>
    exact .inr ⟨rfl, rfl, by simp [phase]⟩

/-- M_CHECK ends the command, or starts on the marker (R151, R168). -/
theorem stepMCheck_finish_or_mMark (s : State) :
    (s.stepMCheck.phase = .finish ∧ s.stepMCheck.mem = s.mem) ∨
      s.stepMCheck = { s with eng := { s.eng with markCount := 0 }, phase := .mMark } := by
  unfold State.stepMCheck
  split_ifs
  · exact .inl ⟨rfl, rfl⟩
  · exact .inl ⟨rfl, rfl⟩
  · exact .inl ⟨rfl, rfl⟩
  · exact .inr rfl

/-- The fourth marker byte ends the command, unless the marker is MAGIC (R156, R157, R161). -/
theorem markRead_of_fourth {s : State} (b : Byte) (h : s.eng.markCount = 3) :
    ((s.markRead b).phase = .finish ∧ (s.markRead b).mem = s.mem) ∨
      ((s.markRead b).phase = .mKgen ∧ le32 s.eng.mark[0] s.eng.mark[1] s.eng.mark[2] b = Config.magic) := by
  unfold State.markRead
  simp only [h]
  split_ifs with more mismatch
  · exact absurd more (by decide)
  · exact .inl ⟨rfl, rfl⟩
  · exact .inl ⟨rfl, rfl⟩
  · exact .inr ⟨rfl, by simpa [Engine.marker, Vector.getElem_setIfInBounds] using mismatch⟩

/-- After a window byte, the command goes on in the window or ends with OK (R168). -/
theorem byteDone_phase (s : State) :
    s.byteDone.phase = .mKgen ∨ s.byteDone.phase = .mRd ∨ (s.byteDone.phase = .finish ∧ s.byteDone.eng.res.outcome = .ok) := by
  by_cases last : s.eng.off + 1 = s.eng.win
  · rw [byteDone_of_last last]; exact .inr (.inr ⟨rfl, rfl⟩)
  · by_cases block : (s.eng.off + 1).toNat % Config.blockBytes = 0
    · rw [byteDone_of_block last block]; exact .inl rfl
    · rw [byteDone_of_more last block]; exact .inr (.inl rfl)

/-! The invariant of a running MASK_HEADER that R171 rests on. -/

/-- The marker bytes that the engine has read so far are those of the buffer of `s`. -/
structure State.MarkerRead (s u : State) : Prop where
  base : u.eng.base = s.bufBase
  count : u.eng.markCount.toNat < 4
  bytes : ∀ j (h : j < 4), j < u.eng.markCount.toNat → u.eng.mark[j] = s.readByte (s.bufBase.toNat + j)

/-- An outcome that a command which has come to its window can end with. -/
def OutcomeCode.OfWindow (c : OutcomeCode) : Prop := c = .ok ∨ c = .errBus

/-- How a MASK_HEADER accepted in `s` stands in `u`, by phase: memory is as it was, unless the marker has matched. -/
def State.MaskProgress (s u : State) : Prop :=
  match u.phase with
  | .gRun => False
  | .mCheck => u.mem = s.mem ∧ u.eng.base = s.bufBase
  | .mMark => u.mem = s.mem ∧ s.MarkerRead u
  | .mKgen | .mRd | .mWr => s.MarkerAt s.bufBase.toNat
  | .finish => u.mem = s.mem ∨ (s.MarkerAt s.bufBase.toNat ∧ u.eng.res.outcome.OfWindow)
  | .idle => u.mem = s.mem ∨ (s.MarkerAt s.bufBase.toNat ∧ u.status.outcome.OfWindow)

/-- `MaskProgress` with no byte in a race, and DONE = 1 only once the engine is IDLE. -/
structure State.MaskRun (s u : State) : Prop where
  unraced : u.raced = []
  done_idle : u.status.done = true → u.phase = .idle
  progress : s.MaskProgress u

theorem maskRun_accept (s : State) : s.MaskRun s.acceptMaskHeader :=
  ⟨rfl, by simp [State.acceptMaskHeader, Status.accepted], rfl, rfl⟩

/-- A command that has come to its window has found the marker. -/
theorem State.MaskProgress.markerAt {s u : State} (h : s.MaskProgress u)
    (window : u.phase = .mKgen ∨ u.phase = .mRd ∨ u.phase = .mWr) : s.MarkerAt s.bufBase.toNat := by
  rcases window with phase | phase | phase <;> simpa only [State.MaskProgress, phase] using h

/-- M_CHECK skips with memory as it was, or starts on the marker with no byte read. -/
theorem maskProgress_stepMCheck {s u : State} (mem : u.mem = s.mem) (base : u.eng.base = s.bufBase) :
    s.MaskProgress u.stepMCheck := by
  rcases stepMCheck_finish_or_mMark u with ⟨finish, kept⟩ | start
  · simp [State.MaskProgress, finish, kept, mem]
  · rw [start]
    exact ⟨mem, base, by simp, by simp⟩

/-- M_MARK ends with memory as it was, counts one more byte of the buffer, or has read all four and they match. -/
theorem maskProgress_markRead {s u : State} {b : Byte} (mem : u.mem = s.mem) (marker : s.MarkerRead u)
    (read : b = s.readByte (s.bufBase.toNat + u.eng.markCount.toNat)) : s.MaskProgress (u.markRead b) := by
  obtain ⟨base, count, bytes⟩ := marker
  by_cases more : u.eng.markCount.toNat < 3
  · have next : (u.eng.markCount + 1).toNat = u.eng.markCount.toNat + 1 := by bv_omega
    rw [markRead_of_more b more]
    refine ⟨mem, base, by simp only [next]; omega, fun j hj counted => ?_⟩
    simp only [next] at counted
    simp only [Vector.getElem_setIfInBounds]
    split_ifs with last
    · rw [read, last]
    · exact bytes j hj (by omega)
  · have three : u.eng.markCount = 3 := by bv_omega
    rcases markRead_of_fourth b three with ⟨finish, kept⟩ | ⟨kgen, magic⟩
    · simp [State.MaskProgress, finish, kept, mem]
    · simp only [three] at bytes read
      rw [bytes 0 (by decide) (by decide), bytes 1 (by decide) (by decide), bytes 2 (by decide) (by decide), read] at magic
      simp only [State.MaskProgress, kgen]
      exact magic

theorem maskProgress_byteDone {s : State} (u : State) (marker : s.MarkerAt s.bufBase.toNat) : s.MaskProgress u.byteDone := by
  rcases byteDone_phase u with kgen | rd | ⟨finish, ok⟩
  · simpa only [State.MaskProgress, kgen] using marker
  · simpa only [State.MaskProgress, rd] using marker
  · simp only [State.MaskProgress, finish, ok]
    exact .inr ⟨marker, .inl rfl⟩

theorem maskProgress_windowError {s : State} (u : State) (marker : s.MarkerAt s.bufBase.toNat) :
    s.MaskProgress u.windowError :=
  .inr ⟨marker, .inr rfl⟩

theorem EngineMove.maskProgress {s u t : State} (h : EngineMove u t) (unraced : u.raced = []) (progress : s.MaskProgress u) :
    s.MaskProgress t := by
  cases h with
  | idle | never => exact progress
  | gRun phase => simp [State.MaskProgress, phase] at progress
  | mCheck phase =>
    simp only [State.MaskProgress, phase] at progress
    exact maskProgress_stepMCheck progress.1 progress.2
  | mMark b n phase read =>
    simp only [State.MaskProgress, phase] at progress
    obtain ⟨mem, marker⟩ := progress
    refine maskProgress_markRead mem ⟨marker.base, marker.count, marker.bytes⟩ ?_
    rw [read unraced, marker.base, State.readByte, mem]
    rfl
  | mMarkErr rs phase =>
    simp only [State.MaskProgress, phase] at progress
    exact .inl progress.1
  | mKgen phase =>
    rw [stepMKgen_eq]
    exact progress.markerAt (.inl phase)
  | mRd b n phase => exact progress.markerAt (.inr (.inl phase))
  | mRdErr rs phase => exact maskProgress_windowError _ (progress.markerAt (.inr (.inl phase)))
  | mWr phase => exact maskProgress_byteDone _ (progress.markerAt (.inr (.inr phase)))
  | mWrErr rs phase => exact maskProgress_windowError _ (progress.markerAt (.inr (.inr phase)))
  | finish phase =>
    simp only [State.MaskProgress, phase] at progress
    simpa [State.MaskProgress, unraced, settleRaces, Status.completed] using progress

theorem EngineMove.maskRun {s u t : State} (h : EngineMove u t) (run : s.MaskRun u) : s.MaskRun t := by
  obtain ⟨unraced, done_idle, progress⟩ := run
  have progress := h.maskProgress unraced progress
  rcases h.finish_or_keeps with rfl | ⟨status, raced, idle⟩
  · exact ⟨rfl, fun _ => rfl, progress⟩
  · exact ⟨raced.trans unraced, fun done => idle (done_idle (status ▸ done)), progress⟩

/-- Wherever a MASK_HEADER's own slack leaves it, the invariant holds. -/
theorem maskRun_exec {s t : State} (busy : s.status.busy = false) (h : exec .maskHeader s = .next t) : s.MaskRun t := by
  rw [exec_eq_issue, State.issue_of_not_busy _ busy] at h
  exact runEngine_keeps (fun _ _ run step => (engineStep_move step).maskRun run) _ (maskRun_accept s) h

theorem State.MaskProgress.mem_eq_of_no_marker {s u : State} (h : s.MaskProgress u)
    (foreign : ¬ s.MarkerAt s.bufBase.toNat) : u.mem = s.mem := by
  cases phase : u.phase <;> simp only [State.MaskProgress, phase] at h
  case mCheck | mMark => exact h.1
  case mKgen | mRd | mWr => exact absurd h foreign
  case finish | idle => exact h.resolve_right fun window => foreign window.1

/-- Settles O39: memory changes only once the marker has matched (`State.MaskProgress`), and from there on a command ends with OK
or ERR_BUS. -/
theorem skippedBufferIsUnchanged : Obligations.SkippedBufferIsUnchanged := by
  intro s t busy next
  have run := maskRun_exec busy next
  refine ⟨fun done notOk notErrBus => ?_, fun _ foreign => run.progress.mem_eq_of_no_marker foreign⟩
  have progress := run.progress
  simp only [State.MaskProgress, run.done_idle done] at progress
  exact progress.resolve_right fun window => window.2.elim notOk notErrBus

end Sys2Proof.Machine

namespace Sys2Proof.Machine

/-! The operand registers and the engine (R94, R248): no engine step reads them or writes them, so overwriting all of them
commutes with every engine step. -/

/-- The operand registers: the RW registers of R23. -/
structure Operands where
  counter : Word
  key : Vector Word 8
  nonce : Vector Word 3
  bufBaseLo : Word
  bufBaseHi : Word
  bufSizeLo : Word
  bufSizeHi : Word

/-- The operand registers of a state. -/
def State.operands (s : State) : Operands :=
  { counter := s.counter, key := s.key, nonce := s.nonce, bufBaseLo := s.bufBaseLo, bufBaseHi := s.bufBaseHi,
    bufSizeLo := s.bufSizeLo, bufSizeHi := s.bufSizeHi }

/-- The state with all its operand registers overwritten. -/
def State.withOperands (o : Operands) (s : State) : State :=
  { s with
    counter := o.counter, key := o.key, nonce := o.nonce, bufBaseLo := o.bufBaseLo, bufBaseHi := o.bufBaseHi,
    bufSizeLo := o.bufSizeLo, bufSizeHi := o.bufSizeHi }

/-- A result with the operand registers of its next state overwritten. -/
def resultWithOperands (o : Operands) (r : Result) : Result := andThen r fun t => .next (t.withOperands o)

/-- The operands after a host write of a register (R98): those that are not RW are no operands. -/
def Operands.write (o : Operands) (r : Reg) (v : Word) : Operands :=
  match r with
  | .counter => { o with counter := v }
  | .key i => { o with key := o.key.set i v }
  | .nonce i => { o with nonce := o.nonce.set i v }
  | .bufBaseLo => { o with bufBaseLo := v }
  | .bufBaseHi => { o with bufBaseHi := v }
  | .bufSizeLo => { o with bufSizeLo := v }
  | .bufSizeHi => { o with bufSizeHi := v }
  | .cmd | .status | .winLen | .bytesDone | .blocks | .ks _ => o

/-- A write of an RW register writes the operands and nothing else. -/
theorem State.writeReg_eq_withOperands (s : State) {r : Reg} (v : Word) (isRw : r.access = .rw) :
    s.writeReg r v = s.withOperands (s.operands.write r v) := by
  cases r with
  | counter | key | nonce | bufBaseLo | bufBaseHi | bufSizeLo | bufSizeHi => rfl
  | cmd | status | winLen | bytesDone | blocks | ks => cases isRw

theorem EngineKeeps.operands {s t : State} (h : EngineKeeps s t) : t.operands = s.operands := by
  simp only [State.operands, h.counter, h.key, h.nonce, h.bufBaseLo, h.bufBaseHi, h.bufSizeLo, h.bufSizeHi]

/-! Each part of an engine step commutes with overwriting the operands. -/

/-- A transaction's effect may depend on the operands only through what follows it. -/
theorem transact_withOperands {o : Operands} {onOk onErr : State → Result}
    (ok : ∀ t, onOk (t.withOperands o) = resultWithOperands o (onOk t))
    (err : ∀ t, onErr (t.withOperands o) = resultWithOperands o (onErr t)) (s : State) (a : Nat) :
    transact (s.withOperands o) a onOk onErr = resultWithOperands o (transact s a onOk onErr) := by
  have device : (s.withOperands o).isDevice a = s.isDevice a := rfl
  have responses : (s.withOperands o).responses = s.responses := rfl
  rw [transact, transact, device, responses]
  split
  · rfl
  split
  · rfl
  split
  · exact ok s
  · exact ok { s with responses := _ }
  · exact err { s with responses := _ }
  · rfl

theorem portByte_withOperands (o : Operands) (s : State) (a : Nat) : (s.withOperands o).portByte a = s.portByte a := rfl

theorem afterPortRead_withOperands (o : Operands) (s : State) (a : Nat) :
    (s.withOperands o).afterPortRead a = (s.afterPortRead a).withOperands o := by
  simp only [State.afterPortRead, apply_ite (State.withOperands o)]
  rfl

theorem memRead_withOperands {o : Operands} {onOk : Byte → State → Result} {onErr : State → Result}
    (ok : ∀ b t, onOk b (t.withOperands o) = resultWithOperands o (onOk b t))
    (err : ∀ t, onErr (t.withOperands o) = resultWithOperands o (onErr t)) (s : State) (a : Nat) :
    memRead (s.withOperands o) a onOk onErr = resultWithOperands o (memRead s a onOk onErr) := by
  refine transact_withOperands (fun t => ?_) err s a
  rw [portByte_withOperands, afterPortRead_withOperands]
  exact ok _ _

theorem memWrite_withOperands {o : Operands} {onOk onErr : State → Result}
    (ok : ∀ t, onOk (t.withOperands o) = resultWithOperands o (onOk t))
    (err : ∀ t, onErr (t.withOperands o) = resultWithOperands o (onErr t)) (s : State) (a : Nat) (v : Byte) :
    memWrite (s.withOperands o) a v onOk onErr = resultWithOperands o (memWrite s a v onOk onErr) :=
  transact_withOperands (fun t => ok (t.stored a v)) (fun t => err (t.storeFailed a)) s a

theorem stepMCheck_withOperands (o : Operands) (s : State) :
    (s.withOperands o).stepMCheck = s.stepMCheck.withOperands o := by
  simp only [State.stepMCheck, apply_ite (State.withOperands o)]
  rfl

theorem markRead_withOperands (o : Operands) (s : State) (b : Byte) :
    (s.withOperands o).markRead b = (s.markRead b).withOperands o := by
  simp only [State.markRead, apply_ite (State.withOperands o)]
  rfl

theorem byteDone_withOperands (o : Operands) (s : State) : (s.withOperands o).byteDone = s.byteDone.withOperands o := by
  simp only [State.byteDone, apply_ite (State.withOperands o)]
  rfl

theorem engineStep_withOperands (o : Operands) (s : State) :
    engineStep (s.withOperands o) = resultWithOperands o (engineStep s) := by
  cases phase : s.phase with
  | idle => rw [engineStep_idle phase, engineStep_idle (by exact phase)]; rfl
  | gRun => rw [engineStep_gRun phase, engineStep_gRun (by exact phase)]; rfl
  | mCheck =>
    rw [engineStep_mCheck phase, engineStep_mCheck (by exact phase), stepMCheck_withOperands]
    rfl
  | mMark =>
    rw [engineStep_mMark phase, engineStep_mMark (by exact phase)]
    exact memRead_withOperands (fun b t => congrArg _ (markRead_withOperands o t b)) (fun _ => rfl) s _
  | mKgen => rw [engineStep_mKgen phase, engineStep_mKgen (by exact phase)]; rfl
  | mRd =>
    rw [engineStep_mRd phase, engineStep_mRd (by exact phase)]
    exact memRead_withOperands (fun _ _ => rfl) (fun _ => rfl) s _
  | mWr =>
    rw [engineStep_mWr phase, engineStep_mWr (by exact phase)]
    exact memWrite_withOperands (fun t => congrArg _ (byteDone_withOperands o t)) (fun _ => rfl) s _ _
  | finish => rw [engineStep_finish phase, engineStep_finish (by exact phase)]; rfl

/-- Settles O52: the write overwrites operands that the engine step neither reads (`engineStep_withOperands`) nor writes
(`EngineKeeps`). -/
theorem engineIgnoresOperandRegisters : Obligations.EngineIgnoresOperandRegisters := by
  intro s r v isRw
  rw [s.writeReg_eq_withOperands v isRw, engineStep_withOperands]
  cases next : engineStep s with
  | next t =>
    have kept : t.operands = s.operands := (engineStep_move next).keeps.operands
    simp only [resultWithOperands, andThen_next, t.writeReg_eq_withOperands v isRw, kept]
  | fault | refused => rfl

end Sys2Proof.Machine

namespace Sys2Proof.Machine

/-! A move inside a command (R39, R168): until FINISH the latches, the result registers, KS and STATUS stay as they are. -/

/-- The keystream block that a generator command, now running, has for KS0 to KS15 (R127, R206). -/
def State.pendingKs (s : State) : Vector Word 16 :=
  if s.phase = .gRun then blockWords s.eng.key s.eng.counter s.eng.nonce else s.eng.res.ks

/-- What the engine leaves alone as long as it does not complete a command. -/
structure WithinCommand (s t : State) : Prop where
  status : t.status = s.status
  winLen : t.winLen = s.winLen
  bytesDone : t.bytesDone = s.bytesDone
  blocks : t.blocks = s.blocks
  ks : t.ks = s.ks
  raced : t.raced = s.raced
  op : t.eng.op = s.eng.op
  base : t.eng.base = s.eng.base
  size : t.eng.size = s.eng.size
  pendingKs : t.pendingKs = s.pendingKs
  idle : t.phase = .idle ↔ s.phase = .idle

theorem WithinCommand.refl (s : State) : WithinCommand s s := ⟨rfl, rfl, rfl, rfl, rfl, rfl, rfl, rfl, rfl, rfl, Iff.rfl⟩

theorem WithinCommand.trans {s t u : State} (h : WithinCommand s t) (g : WithinCommand t u) : WithinCommand s u :=
  ⟨g.status.trans h.status, g.winLen.trans h.winLen, g.bytesDone.trans h.bytesDone, g.blocks.trans h.blocks, g.ks.trans h.ks,
    g.raced.trans h.raced, g.op.trans h.op, g.base.trans h.base, g.size.trans h.size, g.pendingKs.trans h.pendingKs,
    g.idle.trans h.idle⟩

/-- A phase of MASK_HEADER. -/
def Phase.ofMaskHeader (p : Phase) : Prop := p ≠ .idle ∧ p ≠ .gRun

/-- A move of MASK_HEADER that gives the engine a new `e`, with the latches and the keystream result of the old one. -/
theorem withinCommand_of_eng {s : State} {e : Engine} {p : Phase} (before : s.phase.ofMaskHeader) (after : p.ofMaskHeader)
    (op : e.op = s.eng.op) (base : e.base = s.eng.base) (size : e.size = s.eng.size) (ks : e.res.ks = s.eng.res.ks) :
    WithinCommand s { s with eng := e, phase := p } :=
  ⟨rfl, rfl, rfl, rfl, rfl, rfl, op, base, size, by simpa only [State.pendingKs, if_neg before.2, if_neg after.2] using ks,
    iff_of_false after.1 before.1⟩

theorem stepMCheck_withinCommand {s : State} (phase : s.phase.ofMaskHeader) : WithinCommand s s.stepMCheck := by
  unfold State.stepMCheck
  split_ifs
  all_goals exact withinCommand_of_eng phase ⟨nofun, nofun⟩ rfl rfl rfl rfl

theorem markRead_withinCommand {s : State} (b : Byte) (phase : s.phase.ofMaskHeader) : WithinCommand s (s.markRead b) := by
  unfold State.markRead
  simp only
  split_ifs
  all_goals exact withinCommand_of_eng phase ⟨nofun, nofun⟩ rfl rfl rfl rfl

theorem byteDone_withinCommand {s : State} (phase : s.phase.ofMaskHeader) : WithinCommand s s.byteDone := by
  unfold State.byteDone
  simp only
  split_ifs
  all_goals exact withinCommand_of_eng phase ⟨nofun, nofun⟩ rfl rfl rfl rfl

theorem stepGRun_withinCommand {s : State} (phase : s.phase = .gRun) : WithinCommand s s.stepGRun :=
  ⟨rfl, rfl, rfl, rfl, rfl, rfl, rfl, rfl, rfl, by simp [State.pendingKs, phase], by simp [phase]⟩

/-- A move of MASK_HEADER that starts with the environment changed: the answers, the free values and memory are none of the
command's own (R39). -/
theorem withinCommand_of_environment {s t : State} (rs : List Response) (n : Nat) (m : List Host.Cell) (w : Work)
    (h : WithinCommand { s with responses := rs, freeCtr := n, mem := m, work := w } t) : WithinCommand s t := by
  obtain ⟨⟩ := h
  constructor <;> assumption

/-- Every engine move completes the command, or stays inside it. -/
theorem EngineMove.finish_or_within {s t : State} (h : EngineMove s t) :
    (s.phase = .finish ∧ t = s.finish) ∨ WithinCommand s t := by
  have masks {p : Phase} (phase : s.phase = p) (mask : p.ofMaskHeader) : s.phase.ofMaskHeader := phase ▸ mask
  cases h with
  | finish phase => exact .inl ⟨phase, rfl⟩
  | idle | never => exact .inr (.refl s)
  | gRun phase => exact .inr (stepGRun_withinCommand phase)
  | mCheck phase => exact .inr (stepMCheck_withinCommand (masks phase ⟨nofun, nofun⟩))
  | mMark b n phase =>
    exact .inr (withinCommand_of_environment s.responses.tail n s.mem s.work
      (markRead_withinCommand b (masks phase ⟨nofun, nofun⟩)))
  | mWr phase =>
    exact .inr (withinCommand_of_environment s.responses.tail s.freeCtr (Memory.write s.mem s.eng.windowAddr s.eng.maskedByte)
      s.work (byteDone_withinCommand (masks phase ⟨nofun, nofun⟩)))
  | mKgen phase =>
    exact .inr (withinCommand_of_environment s.responses (s.freeCtr + 1) s.mem (Config.freeWork s.freeCtr)
      (withinCommand_of_eng (masks phase ⟨nofun, nofun⟩) ⟨nofun, nofun⟩ rfl rfl rfl rfl))
  | mMarkErr rs phase | mRdErr rs phase =>
    exact .inr (withinCommand_of_environment rs s.freeCtr s.mem s.work
      (withinCommand_of_eng (masks phase ⟨nofun, nofun⟩) ⟨nofun, nofun⟩ rfl rfl rfl rfl))
  | mRd b n phase =>
    exact .inr (withinCommand_of_environment s.responses.tail n s.mem s.work
      (withinCommand_of_eng (masks phase ⟨nofun, nofun⟩) ⟨nofun, nofun⟩ rfl rfl rfl rfl))
  | mWrErr rs phase =>
    exact .inr (withinCommand_of_environment rs (s.freeCtr + 1)
      (Memory.write s.mem s.eng.windowAddr (Config.freeByte s.freeCtr)) s.work
      (withinCommand_of_eng (masks phase ⟨nofun, nofun⟩) ⟨nofun, nofun⟩ rfl rfl rfl rfl))

/-- A run of the engine completes the command, once and for all, or stays inside it. -/
theorem runEngine_within_or_completes {n : Nat} {s t : State} (h : runEngine n s = .next t) :
    WithinCommand s t ∨ ∃ u, WithinCommand s u ∧ u.phase = .finish ∧ t = u.finish := by
  refine runEngine_keeps (P := fun t => WithinCommand s t ∨ ∃ u, WithinCommand s u ∧ u.phase = .finish ∧ t = u.finish)
    (fun v w reached next => ?_) n (.inl (.refl s)) h
  rcases reached with within | ⟨u, within, phase, rfl⟩
  · rcases (engineStep_move next).finish_or_within with ⟨phase, rfl⟩ | move
    · exact .inr ⟨v, within, phase, rfl⟩
    · exact .inl (within.trans move)
  · rw [engineStep_idle rfl] at next
    cases next
    exact .inr ⟨u, within, phase, rfl⟩

/-! The hidden state of each phase (R39, R158, R161, R166, R167). -/

theorem raise_engineOk (s : State) {c : OutcomeCode} {winLen bytesDone blocks : Word} (completes : c ≠ .none)
    (legal : LegalResult c winLen bytesDone blocks) : (s.raise c winLen bytesDone blocks).EngineOk :=
  ⟨completes, legal⟩

theorem stepMCheck_engineOk {s : State} (latched : s.eng.op = .instr .maskHeader)
    (key : s.eng.key = Config.fixedKey) (nonce : s.eng.nonce = Config.fixedNonce) : s.stepMCheck.EngineOk := by
  unfold State.stepMCheck
  split_ifs with empty range small
  · exact ⟨nofun, rfl, rfl, rfl⟩
  · exact ⟨nofun, rfl, rfl, rfl⟩
  · exact ⟨nofun, rfl, rfl, rfl⟩
  · exact ⟨⟨latched, key, nonce, by simpa using small, by simpa using range⟩, by simp⟩

/-- A window length is at most WINDOW_CAP, so WIN_LEN holds it (R161). -/
theorem toNat_ofNat_windowLength (n : Nat) : (BitVec.ofNat 32 (windowLength n)).toNat = windowLength n := by
  rw [BitVec.toNat_ofNat, Nat.mod_eq_of_lt]
  have : windowLength n ≤ Config.windowCap := min_le_left ..
  simp only [Config.windowCap] at this
  omega

/-- The fourth marker byte, the marker matching and the buffer having a window: on to the first block of it (R161, R168). -/
theorem windowOk_start {e : Engine} (buffer : e.BufferOk) (large : 8 < e.size.toNat) :
    Engine.WindowOk { e with win := BitVec.ofNat 32 (windowLength e.size.toNat), off := 0, ctr := 0 } := by
  refine ⟨buffer, large, toNat_ofNat_windowLength _, ?_, by simp⟩
  show 0 < (BitVec.ofNat 32 (windowLength e.size.toNat)).toNat
  rw [toNat_ofNat_windowLength]
  exact lt_min (by decide) (Nat.sub_pos_of_lt large)

theorem markRead_engineOk {s : State} (b : Byte) (buffer : s.eng.BufferOk) : (s.markRead b).EngineOk := by
  unfold State.markRead
  simp only
  split_ifs with more mismatch eight
  · exact ⟨buffer, more⟩
  · exact ⟨nofun, rfl, rfl, rfl⟩
  · exact ⟨nofun, rfl, rfl, rfl⟩
  · have large : 8 < s.eng.size.toNat := by
      have := buffer.2.2.2.1
      have : s.eng.size.toNat ≠ 8 := fun h => eight (BitVec.eq_of_toNat_eq h)
      omega
    exact ⟨windowOk_start buffer large, rfl⟩

/-- What R202's rows ask of the numbers of a window. -/
theorem Engine.WindowOk.bounds {e : Engine} (h : e.WindowOk) :
    e.win.toNat = windowLength e.size.toNat ∧ e.win.toNat ≤ 0x200 ∧ e.off.toNat < e.win.toNat ∧
      e.ctr.toNat = e.off.toNat / 64 ∧ (e.off + 1).toNat = e.off.toNat + 1 ∧ (e.ctr + 1).toNat = e.ctr.toNat + 1 := by
  obtain ⟨-, -, win, off, ctr⟩ := h
  have cap : e.win.toNat ≤ 0x200 := win ▸ min_le_left ..
  simp only [Config.blockBytes] at ctr
  refine ⟨win, cap, off, ctr, ?_, ?_⟩ <;> bv_omega

theorem windowError_engineOk {s : State} (h : s.eng.WindowOk) : s.windowError.EngineOk := by
  obtain ⟨-, cap, off, ctr, -, next⟩ := h.bounds
  exact raise_engineOk s nofun (.inr ⟨cap, off, by rw [next, ctr]⟩)

theorem byteDone_engineOk {s : State} (h : s.eng.WindowOk)
    (kbuf : s.eng.kbuf = keystream Config.fixedKey s.eng.ctr Config.fixedNonce) : s.byteDone.EngineOk := by
  obtain ⟨win, cap, off, ctr, nextOff, nextCtr⟩ := h.bounds
  obtain ⟨buffer, large, -, -, -⟩ := h
  by_cases last : s.eng.off + 1 = s.eng.win
  · rw [byteDone_of_last last]
    have size : s.eng.win.toNat = s.eng.off.toNat + 1 := by rw [← last, nextOff]
    refine raise_engineOk _ nofun (.inr ⟨by omega, cap, rfl, ?_⟩)
    rw [nextCtr, ctr, size, blocksFor, Config.blockBytes]
    omega
  · have inside : s.eng.off.toNat + 1 < s.eng.win.toNat := by
      have : s.eng.off.toNat + 1 ≠ s.eng.win.toNat := fun h => last (BitVec.eq_of_toNat_eq (nextOff.trans h))
      omega
    by_cases block : (s.eng.off + 1).toNat % Config.blockBytes = 0
    · rw [byteDone_of_block last block]
      refine ⟨⟨buffer, large, win, nextOff.trans_lt inside, ?_⟩, block⟩
      rw [nextOff, Config.blockBytes] at block
      show (s.eng.ctr + 1).toNat = (s.eng.off + 1).toNat / 64
      omega
    · rw [byteDone_of_more last block]
      refine ⟨⟨buffer, large, win, nextOff.trans_lt inside, ?_⟩, kbuf⟩
      rw [nextOff, Config.blockBytes] at block
      show s.eng.ctr.toNat = (s.eng.off + 1).toNat / 64
      omega

/-- Every engine move keeps what the hidden state satisfies in each phase. -/
theorem EngineMove.engineOk {s t : State} (h : EngineMove s t) (ok : s.EngineOk) : t.EngineOk := by
  cases h with
  | idle | never => exact ok
  | gRun phase => exact ⟨nofun, .inl ⟨rfl, rfl, rfl⟩⟩
  | mCheck phase =>
    simp only [State.EngineOk, phase] at ok
    exact stepMCheck_engineOk ok.1 ok.2.1 ok.2.2
  | mMark b n phase =>
    simp only [State.EngineOk, phase] at ok
    exact markRead_engineOk b ok.1
  | mMarkErr rs phase => exact ⟨nofun, .inl ⟨rfl, rfl, rfl⟩⟩
  | mKgen phase =>
    simp only [State.EngineOk, phase] at ok
    obtain ⟨window, -⟩ := ok
    rw [stepMKgen_eq]
    obtain ⟨-, key, nonce, -⟩ := window.1
    exact ⟨window, by rw [key, nonce]⟩
  | mRd b n phase =>
    simp only [State.EngineOk, phase] at ok
    exact ok
  | mRdErr rs phase =>
    simp only [State.EngineOk, phase] at ok
    exact windowError_engineOk ok.1
  | mWr phase =>
    simp only [State.EngineOk, phase] at ok
    exact byteDone_engineOk ok.1 ok.2
  | mWrErr rs phase =>
    simp only [State.EngineOk, phase] at ok
    exact windowError_engineOk ok.1
  | finish phase => exact (rfl : s.finish.raced = [])

end Sys2Proof.Machine

namespace Sys2Proof.Machine

/-! The invariant and the engine (R25, R40, R202, R206). -/

/-- What a move does to memory: only the write of a window byte and FINISH touch it. -/
theorem EngineMove.mem_cases {s t : State} (h : EngineMove s t) :
    t.mem = s.mem ∨
      (s.phase = .mWr ∧ s.eng.windowAddr < Config.memSpan ∧ ∃ v, t.mem = Memory.write s.mem s.eng.windowAddr v) ∨
      (s.phase = .finish ∧ t.mem = settleRaces s.raced s.freeCtr s.mem) := by
  cases h with
  | mWr phase address =>
    obtain ⟨e, p, done⟩ := byteDone_eq (State.stored { s with responses := s.responses.tail } s.eng.windowAddr s.eng.maskedByte)
    exact .inr (.inl ⟨phase, address, _, by rw [done]; rfl⟩)
  | mWrErr rs phase address => exact .inr (.inl ⟨phase, address, _, rfl⟩)
  | finish phase => exact .inr (.inr ⟨phase, rfl⟩)
  | mCheck =>
    obtain ⟨e, p, checked⟩ := stepMCheck_eq s
    exact .inl (by rw [checked])
  | mMark b n =>
    obtain ⟨e, p, read⟩ := markRead_eq { s with responses := s.responses.tail, freeCtr := n } b
    exact .inl (by rw [read])
  | idle | never | gRun | mMarkErr | mKgen | mRd | mRdErr => exact .inl rfl

theorem EngineMove.canonical {s t : State} (h : EngineMove s t) (canonical : s.Canonical) : t.Canonical := by
  obtain ⟨mem, temps, raced⟩ := canonical
  refine ⟨?_, h.keeps.temps ▸ temps, ?_⟩
  · rcases h.mem_cases with kept | ⟨-, address, v, written⟩ | ⟨-, settled⟩
    · rwa [kept]
    · rw [written]; exact Memory.wf_write v mem address
    · rw [settled]; exact Memory.wf_settleRaces _ _ mem raced
  · rcases h.finish_or_within with ⟨-, rfl⟩ | within
    · exact nofun
    · rwa [within.raced]

theorem Status.completed_legal (t : Status) {c : OutcomeCode} (h : c ≠ .none) : (t.completed c).Legal :=
  ⟨nofun, by simpa [Status.completed] using h, rfl⟩

theorem Status.accepted_legal (t : Status) : t.accepted.Legal := ⟨fun _ => ⟨rfl, rfl, rfl⟩, by simp [Status.accepted], rfl⟩

theorem EngineMove.inv {s t : State} (h : EngineMove s t) (inv : Inv s) : Inv t := by
  obtain ⟨legal, busy, results, ok, canonical⟩ := inv
  have ok' := h.engineOk ok
  have canonical' := h.canonical canonical
  rcases h.finish_or_within with ⟨phase, rfl⟩ | within
  · simp only [State.EngineOk, phase] at ok
    obtain ⟨completes, row⟩ := ok
    exact ⟨s.status.completed_legal completes, by simp [Status.completed], ⟨_, row, fun _ => rfl⟩, ok', canonical'⟩
  · refine ⟨within.status ▸ legal, by rw [within.status, busy, ne_eq, ne_eq, within.idle], ?_, ok', canonical'⟩
    simpa only [State.ResultsLegal, within.status, within.winLen, within.bytesDone, within.blocks] using results

theorem runEngine_inv {n : Nat} {s t : State} (inv : Inv s) (h : runEngine n s = .next t) : Inv t :=
  runEngine_keeps (fun _ _ inv step => (engineStep_move step).inv inv) n inv h

/-! The invariant and the host's turns. -/

theorem inv_accept {s : State} (inv : Inv s) {e : Engine} {p : Phase} (running : p ≠ .idle)
    (ok : (s.accept e p).EngineOk) : Inv (s.accept e p) := by
  obtain ⟨-, -, ⟨c, row, -⟩, -, mem, temps, -⟩ := inv
  exact ⟨s.status.accepted_legal, by simpa [Status.accepted] using running, ⟨c, row, nofun⟩, ok, mem, temps, nofun⟩

/-- Acceptance of any command word, a bad one included (R94, R207). -/
theorem inv_acceptCommand {s : State} (inv : Inv s) (c : Command) : Inv (s.acceptCommand c) := by
  rcases c with (_ | _ | _) | why
  · exact inv_accept inv nofun (.inl rfl)
  · exact inv_accept inv nofun (.inr rfl)
  · exact inv_accept inv nofun ⟨rfl, rfl, rfl⟩
  · exact inv_accept inv (p := .finish)
      (e := { s.eng with op := .bad why, res := { s.eng.res with outcome := .errBadCmd, winLen := 0, bytesDone := 0, blocks := 0 } })
      nofun ⟨nofun, rfl, rfl, rfl⟩

theorem inv_issue {s : State} (inv : Inv s) (c : Command) : Inv (s.issue (s.acceptCommand c)) := by
  cases busy : s.status.busy with
  | true => rw [State.issue_of_busy _ busy]; exact inv
  | false => rw [State.issue_of_not_busy _ busy]; exact inv_acceptCommand inv c

theorem inv_writeOffset {s : State} (inv : Inv s) (o : Nat) (v : Word) : Inv (s.writeOffset o v) := by
  unfold State.writeOffset
  cases Reg.ofOffset o with
  | none => exact inv
  | some r => cases r <;> exact inv

theorem inv_setTemp {s : State} (inv : Inv s) (i : Nat) (v : Word) : Inv (s.setTemp i v) := by
  obtain ⟨legal, busy, results, ok, mem, temps, raced⟩ := inv
  exact ⟨legal, busy, results, ok, mem, cellsWf_write _ _ _ _ temps, raced⟩

theorem inv_hostLoad {s : State} (inv : Inv s) (a i : Nat) : Inv (s.hostLoad a i) := by
  unfold State.hostLoad
  split
  · exact inv_setTemp inv i _
  · exact inv_setTemp inv i _

theorem State.busy_of_touchable {s : State} {a : Nat} (h : s.touchable a = true) : s.status.busy = true := by
  simp only [State.touchable, Bool.and_eq_true] at h
  exact h.1.1

/-- A byte added to a race in a busy block is no concern of what the phases ask (R74). -/
theorem engineOk_of_busy {s : State} (ok : s.EngineOk) (running : s.phase ≠ .idle) (m : List Host.Cell) (as : List Nat) :
    State.EngineOk { s with mem := m, raced := as } := by
  cases phase : s.phase <;> simp only [State.EngineOk, phase] at ok ⊢
  case idle => exact absurd phase running
  all_goals exact ok

theorem inv_hostStore {s : State} (inv : Inv s) {a : Nat} (address : a < Config.memSpan) (v : Byte) : Inv (s.hostStore a v) := by
  obtain ⟨legal, busy, results, ok, mem, temps, raced⟩ := inv
  have mem' := Memory.wf_write v mem address
  have running (touched : s.touchable a = true) := busy.mp (State.busy_of_touchable touched)
  unfold State.hostStore
  split_ifs with touched
  · exact ⟨legal, busy, results, engineOk_of_busy ok (running touched) _ _, mem', temps, raced⟩
  · exact ⟨legal, busy, results, engineOk_of_busy ok (running touched) _ _, mem', temps, List.forall_mem_cons.mpr ⟨address, raced⟩⟩
  · exact ⟨legal, busy, results, ok, mem', temps, raced⟩

theorem inv_resetBlock {s : State} (inv : Inv s) : Inv s.resetBlock := by
  obtain ⟨-, -, -, -, mem, temps, raced⟩ := inv
  have aborted : Memory.wf s.abortedMem = true := by
    unfold State.abortedMem
    split_ifs with flight
    · exact Memory.wf_write _ mem flight.2.1
    · exact mem
  exact ⟨⟨nofun, by simp [State.resetBlock, State.reset, Status.reset], rfl⟩, by simp [State.resetBlock, State.reset, Status.reset],
    ⟨.none, ⟨rfl, rfl, rfl⟩, nofun⟩, (rfl : s.resetBlock.raced = []), Memory.wf_settleRaces _ _ aborted raced, temps, nofun⟩

end Sys2Proof.Machine

namespace Sys2Proof.Machine

/-! What can stop the engine (R67, R158, R200). -/

/-- The address of the transaction that a phase makes (R155, R168). -/
def State.Transacts (s : State) (a : Nat) : Prop :=
  (s.phase = .mMark ∧ a = s.eng.base.toNat + s.eng.markCount.toNat) ∨
    ((s.phase = .mRd ∨ s.phase = .mWr) ∧ a = s.eng.windowAddr)

/-- A transaction whose continuations answer next states is stopped by its address only. -/
theorem transact_next_or_stops {onOk onErr : State → Result} (ok : ∀ t, ∃ u, onOk t = .next u)
    (err : ∀ t, ∃ u, onErr t = .next u) (s : State) (a : Nat) :
    (∃ t, transact s a onOk onErr = .next t) ∨
      (Config.memSpan ≤ a ∧ transact s a onOk onErr = .fault (.addressOutsideMemory a)) ∨
      (s.isDevice a = true ∧ transact s a onOk onErr = .refused (.deviceMemory a)) := by
  unfold transact
  split_ifs with range device
  · exact .inr (.inl ⟨range, rfl⟩)
  · exact .inr (.inr ⟨device, rfl⟩)
  · left
    split
    · exact ok s
    · exact ok _
    · exact err _
    · exact ⟨s, rfl⟩

theorem engineStep_next_or_stops (s : State) :
    (∃ t, engineStep s = .next t) ∨ ∃ a, s.Transacts a ∧
      ((Config.memSpan ≤ a ∧ engineStep s = .fault (.addressOutsideMemory a)) ∨
        (s.isDevice a = true ∧ engineStep s = .refused (.deviceMemory a))) := by
  cases phase : s.phase with
  | idle => exact .inl ⟨_, engineStep_idle phase⟩
  | gRun => exact .inl ⟨_, engineStep_gRun phase⟩
  | mCheck => exact .inl ⟨_, engineStep_mCheck phase⟩
  | mKgen => exact .inl ⟨_, engineStep_mKgen phase⟩
  | finish => exact .inl ⟨_, engineStep_finish phase⟩
  | mMark =>
    rw [engineStep_mMark phase, State.stepMMark, memRead]
    exact (transact_next_or_stops (fun _ => ⟨_, rfl⟩) (fun _ => ⟨_, rfl⟩) s _).imp_right fun stop => ⟨_, .inl ⟨phase, rfl⟩, stop⟩
  | mRd =>
    rw [engineStep_mRd phase, State.stepMRd, memRead]
    exact (transact_next_or_stops (fun _ => ⟨_, rfl⟩) (fun _ => ⟨_, rfl⟩) s _).imp_right
      fun stop => ⟨_, .inr ⟨.inl phase, rfl⟩, stop⟩
  | mWr =>
    rw [engineStep_mWr phase, State.stepMWr, memWrite]
    exact (transact_next_or_stops (fun _ => ⟨_, rfl⟩) (fun _ => ⟨_, rfl⟩) s _).imp_right
      fun stop => ⟨_, .inr ⟨.inr phase, rfl⟩, stop⟩

/-- The window byte that a phase works on lies in the buffer, below its end (R158, R161). -/
theorem Engine.WindowOk.windowAddr_lt {e : Engine} (h : e.WindowOk) :
    e.windowAddr < e.base.toNat + 8 + min 0x200 (e.size.toNat - 8) ∧ e.windowAddr < Config.memSpan := by
  obtain ⟨win, -, off, -⟩ := h.bounds
  obtain ⟨⟨-, -, -, -, range⟩, large, -⟩ := h
  simp only [windowLength, Config.windowCap, Config.hdrOffset] at win
  simp only [Engine.windowAddr, Config.hdrOffset]
  omega

/-- R158: every transaction is inside the memory space. -/
theorem State.EngineOk.transacts_lt {s : State} (ok : s.EngineOk) {a : Nat} (h : s.Transacts a) : a < Config.memSpan := by
  rcases h with ⟨phase, rfl⟩ | ⟨phase | phase, rfl⟩ <;> simp only [State.EngineOk, phase] at ok
  · obtain ⟨⟨-, -, -, size, range⟩, count⟩ := ok
    omega
  · exact ok.1.windowAddr_lt.2
  · exact ok.1.windowAddr_lt.2

theorem engineStep_next_or_device {s : State} (ok : s.EngineOk) :
    (∃ t, engineStep s = .next t) ∨ ∃ a, s.isDevice a = true ∧ engineStep s = .refused (.deviceMemory a) := by
  rcases engineStep_next_or_stops s with next | ⟨a, transacts, ⟨range, -⟩ | stop⟩
  · exact .inl next
  · exact absurd (ok.transacts_lt transacts) (by omega)
  · exact .inr ⟨a, stop⟩

theorem isDevice_congr {s t : State} (h : t.devices = s.devices) (a : Nat) : t.isDevice a = s.isDevice a := by
  rw [State.isDevice, State.isDevice, h]

theorem EngineKeeps.isDevice {s t : State} (h : EngineKeeps s t) (a : Nat) : t.isDevice a = s.isDevice a :=
  isDevice_congr h.devices a

/-- A run from a state whose hidden state is in order stops only at memory with side effects. -/
theorem runEngine_next_or_device (n : Nat) {s : State} (ok : s.EngineOk) :
    (∃ t, runEngine n s = .next t) ∨ ∃ a, s.isDevice a = true ∧ runEngine n s = .refused (.deviceMemory a) := by
  induction n generalizing s with
  | zero => exact .inl ⟨s, rfl⟩
  | succ n ih =>
    rw [runEngine_succ]
    rcases engineStep_next_or_device ok with ⟨t, next⟩ | ⟨a, device, stop⟩
    · have move := engineStep_move next
      rw [next, andThen_next]
      simpa only [move.keeps.isDevice] using ih (move.engineOk ok)
    · rw [stop]
      exact .inr ⟨a, device, rfl⟩

/-- Whatever the state, the engine is refused nothing but memory with side effects. -/
theorem runEngine_refused {n : Nat} {s : State} {r : Refusal} (h : runEngine n s = .refused r) :
    ∃ a, r = .deviceMemory a ∧ s.isDevice a = true := by
  induction n generalizing s with
  | zero => cases h
  | succ n ih =>
    rw [runEngine_succ] at h
    rcases engineStep_next_or_stops s with ⟨t, next⟩ | ⟨a, -, ⟨-, stop⟩ | ⟨device, stop⟩⟩
    · rw [next, andThen_next] at h
      simpa only [(engineStep_move next).keeps.isDevice] using ih h
    · rw [stop] at h; cases h
    · rw [stop] at h; cases h; exact ⟨a, rfl, device⟩

/-! What a host turn can stop at (R41, R67, R97). -/

theorem portRefusal_eq_some {a : PortAccess} {r : Refusal} (h : portRefusal a = some r) :
    (r = .portWidth a.width ∧ a.width ≠ 4) ∨ (r = .portOutside a.offset ∧ 0x100 ≤ a.offset) ∨
      (r = .portMisaligned a.offset ∧ a.offset % 4 ≠ 0) := by
  unfold portRefusal at h
  split_ifs at h with width block aligned
  · cases h; exact .inl ⟨rfl, by simpa [PortAccess.widthOk] using width⟩
  · cases h; exact .inr (.inl ⟨rfl, not_lt.mp (of_decide_eq_false (by simpa using block : a.inBlock = false))⟩)
  · cases h; exact .inr (.inr ⟨rfl, by simpa [PortAccess.aligned] using aligned⟩)

/-- A refusal of O48: a port access without a meaning, or memory with side effects. -/
def State.DutyRefusal (s : State) (r : Refusal) : Prop :=
  (∃ w, r = .portWidth w ∧ w ≠ 4) ∨ (∃ o, r = .portOutside o ∧ 0x100 ≤ o) ∨ (∃ o, r = .portMisaligned o ∧ o % 4 ≠ 0) ∨
    (∃ a, r = .deviceMemory a ∧ s.isDevice a = true) ∨ (∃ a, r = .hostDeviceAccess a ∧ s.isDevice a = true)

theorem dutyRefusal_of_port (s : State) {a : PortAccess} {r : Refusal} (h : portRefusal a = some r) : s.DutyRefusal r := by
  rcases portRefusal_eq_some h with ⟨rfl, width⟩ | ⟨rfl, offset⟩ | ⟨rfl, offset⟩
  · exact .inl ⟨_, rfl, width⟩
  · exact .inr (.inl ⟨_, rfl, offset⟩)
  · exact .inr (.inr (.inl ⟨_, rfl, offset⟩))

theorem State.acceptCommand_devices (s : State) (c : Command) : (s.acceptCommand c).devices = s.devices := by
  rcases c with (_ | _ | _) | why <;> rfl

theorem State.issue_devices (s : State) (c : Command) : (s.issue (s.acceptCommand c)).devices = s.devices := by
  unfold State.issue
  split
  · rfl
  · exact s.acceptCommand_devices c

theorem State.writeOffset_devices (s : State) (o : Nat) (v : Word) : (s.writeOffset o v).devices = s.devices := by
  unfold State.writeOffset
  cases Reg.ofOffset o with
  | none => rfl
  | some r => cases r <;> rfl

theorem State.hostStore_devices (s : State) (a : Nat) (v : Byte) : (s.hostStore a v).devices = s.devices := by
  unfold State.hostStore
  split <;> rfl

theorem State.hostLoad_devices (s : State) (a i : Nat) : (s.hostLoad a i).devices = s.devices := by
  unfold State.hostLoad
  split <;> rfl

/-- A host turn is refused, or it is done and the engine runs, on the same platform and with the invariant kept. -/
theorem HostMove.refused_or_runs {s : State} {op : HostOp} {o : Result} (h : HostMove s op o) :
    (∃ r, o = .refused r ∧ s.DutyRefusal r) ∨ ∃ n u, o = runEngine n u ∧ u.devices = s.devices ∧ (Inv s → Inv u) := by
  cases h with
  | command a w => exact .inr ⟨_, _, rfl, s.issue_devices _, fun inv => inv_issue inv _⟩
  | write a v => exact .inr ⟨_, _, rfl, s.writeOffset_devices _ v, fun inv => inv_writeOffset inv _ v⟩
  | read a i => exact .inr ⟨_, _, rfl, rfl, fun inv => inv_setTemp inv i _⟩
  | pollAgain => exact .inr ⟨_, _, rfl, rfl, fun inv => inv_setTemp inv 0 s.status.toWord⟩
  | pollDone => exact .inr ⟨_, _, rfl, rfl, fun inv => inv_setTemp inv 0 _⟩
  | memWrite a v => exact .inr ⟨_, _, rfl, s.hostStore_devices _ v, fun inv => inv_hostStore inv a.isLt v⟩
  | memRead a i => exact .inr ⟨_, _, rfl, s.hostLoad_devices _ i, fun inv => inv_hostLoad inv _ i⟩
  | reset => exact .inr ⟨_, _, rfl, rfl, inv_resetBlock⟩
  | pause => exact .inr ⟨_, _, rfl, rfl, id⟩
  | writeRefused a v r refusal => exact .inl ⟨r, rfl, dutyRefusal_of_port s refusal⟩
  | readRefused a i r refusal => exact .inl ⟨r, rfl, dutyRefusal_of_port s refusal⟩
  | memWriteRefused a v device => exact .inl ⟨_, rfl, .inr (.inr (.inr (.inr ⟨_, rfl, device⟩)))⟩
  | memReadRefused a i device => exact .inl ⟨_, rfl, .inr (.inr (.inr (.inr ⟨_, rfl, device⟩)))⟩

/-- Every step, with a host turn or without, is refused for a duty or is a run of the engine. -/
theorem step_refused_or_runs (s : State) :
    (∃ r, step s = .refused r ∧ s.DutyRefusal r) ∨
      ∃ n u, step s = runEngine n u ∧ u.devices = s.devices ∧ (Inv s → Inv u) := by
  cases host : s.host with
  | nil =>
    rw [step_of_no_turn host]
    exact .inr ⟨1, s, by rw [runEngine_succ]; exact (andThen_next_right _).symm, rfl, id⟩
  | cons turn rest => exact (step_hostMove host).refused_or_runs

/-- Settles O46: the engine keeps the invariant (`EngineMove.inv`), and every host turn does what it does with the invariant kept
before the engine runs (`HostMove.refused_or_runs`). -/
theorem everyStepKeepsTheInvariant : Obligations.EveryStepKeepsTheInvariant := by
  intro s t inv next
  rcases step_refused_or_runs s with ⟨r, refused, -⟩ | ⟨n, u, runs, -, kept⟩
  · rw [refused] at next; cases next
  · exact runEngine_inv (kept inv) (runs ▸ next)

/-- Settles O47: under the invariant a run of the engine stops at memory with side effects only, and that is a refusal. -/
theorem noStepFaults : Obligations.NoStepFaults := by
  intro s r inv fault
  rcases step_refused_or_runs s with ⟨q, refused, -⟩ | ⟨n, u, runs, -, kept⟩
  · rw [refused] at fault; cases fault
  · obtain ⟨-, -, -, ok, -⟩ := kept inv
    rw [runs] at fault
    rcases runEngine_next_or_device n ok with ⟨t, next⟩ | ⟨a, -, stop⟩
    · rw [next] at fault; cases fault
    · rw [stop] at fault; cases fault

/-- Settles O48: a refusal is the host turn's own, or the engine's at memory with side effects of the same platform. -/
theorem onlyDutyViolationsAreRefused : Obligations.OnlyDutyViolationsAreRefused := by
  intro s r refusal
  rcases step_refused_or_runs s with ⟨q, refused, duty⟩ | ⟨n, u, runs, devices, -⟩
  · rw [refused] at refusal; cases refusal; exact duty
  · obtain ⟨a, rfl, device⟩ := runEngine_refused (runs ▸ refusal)
    exact .inr (.inr (.inr (.inl ⟨a, rfl, isDevice_congr devices a ▸ device⟩)))

/-- Settles O45. -/
theorem invariantHoldsAtReset : Obligations.InvariantHoldsAtReset :=
  ⟨⟨nofun, by decide, rfl⟩, by decide, ⟨.none, ⟨rfl, rfl, rfl⟩, nofun⟩, (rfl : State.reset.raced = []), rfl, rfl, nofun⟩

end Sys2Proof.Machine

namespace Sys2Proof.Machine

/-! How long a command can still take (R168, R253; log 22). -/

/-- Engine steps from the write of the window byte at `off` on: two a byte, one a block that still starts, and FINISH. -/
def Engine.windowSteps (e : Engine) : Nat :=
  2 * (e.win.toNat - e.off.toNat) + ((e.win.toNat - 1) / 64 - e.off.toNat / 64)

/-- A bound on the engine steps until the engine is IDLE, if every transaction is answered. -/
def State.stepsLeft (s : State) : Nat :=
  match s.phase with
  | .idle => 0
  | .finish => 1
  | .gRun => 2
  | .mCheck => 1038
  | .mMark => 1037 - s.eng.markCount.toNat
  | .mKgen => s.eng.windowSteps + 2
  | .mRd => s.eng.windowSteps + 1
  | .mWr => s.eng.windowSteps

theorem Engine.WindowOk.windowSteps_bounds {e : Engine} (h : e.WindowOk) : 2 ≤ e.windowSteps ∧ e.windowSteps ≤ 1031 := by
  obtain ⟨-, cap, off, -⟩ := h.bounds
  unfold Engine.windowSteps
  omega

theorem stepMCheck_stepsLeft (s : State) : s.stepMCheck.stepsLeft < 1038 := by
  unfold State.stepMCheck
  split_ifs
  all_goals simp [State.stepsLeft]

theorem markRead_stepsLeft {s : State} (b : Byte) (buffer : s.eng.BufferOk) (count : s.eng.markCount.toNat < 4) :
    (s.markRead b).stepsLeft < 1037 - s.eng.markCount.toNat := by
  have ok := markRead_engineOk b buffer
  by_cases more : s.eng.markCount.toNat < 3
  · rw [markRead_of_more b more]
    show 1037 - (s.eng.markCount + 1).toNat < _
    bv_omega
  · have three : s.eng.markCount = 3 := by bv_omega
    rcases markRead_of_fourth b three with ⟨finish, -⟩ | ⟨kgen, -⟩
    · simp only [State.stepsLeft, finish]; omega
    · simp only [State.EngineOk, kgen] at ok
      have := ok.1.windowSteps_bounds
      simp only [State.stepsLeft, kgen]; omega

theorem byteDone_stepsLeft {s : State} (h : s.eng.WindowOk) : s.byteDone.stepsLeft < s.eng.windowSteps := by
  have steps := h.windowSteps_bounds
  obtain ⟨-, -, off, -, nextOff, -⟩ := h.bounds
  by_cases last : s.eng.off + 1 = s.eng.win
  · rw [byteDone_of_last last]
    show 1 < _
    omega
  · have inside : s.eng.off.toNat + 1 ≠ s.eng.win.toNat := fun h => last (BitVec.eq_of_toNat_eq (nextOff.trans h))
    by_cases block : (s.eng.off + 1).toNat % Config.blockBytes = 0
    · rw [byteDone_of_block last block]
      rw [nextOff, Config.blockBytes] at block
      simp only [State.stepsLeft, Engine.windowSteps, nextOff]
      omega
    · rw [byteDone_of_more last block]
      rw [nextOff, Config.blockBytes] at block
      simp only [State.stepsLeft, Engine.windowSteps, nextOff]
      omega

/-- Every move of a running engine whose transaction is answered brings the end nearer. -/
theorem EngineMove.stepsLeft_lt {s t : State} (h : EngineMove s t) (ok : s.EngineOk) (answered : s.Answered)
    (running : s.phase ≠ .idle) : t.stepsLeft < s.stepsLeft := by
  cases h with
  | idle phase => exact absurd phase running
  | never rs phase hang => exact absurd (by simp [hang]) answered
  | gRun phase => simp [State.stepsLeft, phase]
  | mCheck phase =>
    simp only [State.stepsLeft, phase]
    exact stepMCheck_stepsLeft s
  | mMark b n phase =>
    simp only [State.EngineOk, phase] at ok
    simp only [State.stepsLeft.eq_def s, phase]
    exact markRead_stepsLeft b ok.1 ok.2
  | mMarkErr rs phase =>
    simp only [State.EngineOk, phase] at ok
    simp only [State.stepsLeft, phase, State.raise_phase]
    omega
  | mKgen phase =>
    rw [stepMKgen_eq]
    simp only [State.stepsLeft, phase, Engine.windowSteps]
    omega
  | mRd b n phase =>
    simp only [State.stepsLeft, phase, Engine.windowSteps]
    omega
  | mRdErr rs phase =>
    simp only [State.EngineOk, phase] at ok
    have := ok.1.windowSteps_bounds
    simp only [State.stepsLeft, phase, State.windowError, State.raise_phase]
    omega
  | mWr phase =>
    simp only [State.EngineOk, phase] at ok
    simp only [State.stepsLeft.eq_def s, phase]
    exact byteDone_stepsLeft (by exact ok.1)
  | mWrErr rs phase =>
    simp only [State.EngineOk, phase] at ok
    have := ok.1.windowSteps_bounds
    simp only [State.stepsLeft, phase, State.windowError, State.raise_phase]
    omega
  | finish phase => simp [State.stepsLeft, phase]

/-- Only the end of the list of answers is ever left (R68). -/
theorem EngineMove.responses_suffix {s t : State} (h : EngineMove s t) : t.responses <:+ s.responses := by
  cases h with
  | mCheck =>
    obtain ⟨e, p, checked⟩ := stepMCheck_eq s
    rw [checked]
  | mMark b n =>
    obtain ⟨e, p, read⟩ := markRead_eq { s with responses := s.responses.tail, freeCtr := n } b
    rw [read]
    exact s.responses.tail_suffix
  | mWr =>
    obtain ⟨e, p, done⟩ := byteDone_eq (State.stored { s with responses := s.responses.tail } s.eng.windowAddr s.eng.maskedByte)
    rw [done]
    exact s.responses.tail_suffix
  | mRd => exact s.responses.tail_suffix
  | mMarkErr rs _ answer | mRdErr rs _ answer | mWrErr rs _ _ answer => 
    rw [answer]
    exact List.suffix_cons .busErr rs
  | idle | never | gRun | mKgen | finish => exact List.suffix_rfl

theorem EngineMove.answered {s t : State} (h : EngineMove s t) (answered : s.Answered) : t.Answered :=
  fun hang => answered (h.responses_suffix.subset hang)

/-- A run brings the end nearer by its length. -/
theorem runEngine_stepsLeft {n : Nat} {s t : State} (ok : s.EngineOk) (answered : s.Answered) (h : runEngine n s = .next t) :
    t.stepsLeft ≤ s.stepsLeft - n := by
  induction n generalizing s with
  | zero => cases h; exact Nat.le_refl _
  | succ n ih =>
    rw [runEngine_succ] at h
    obtain ⟨u, next, h⟩ := andThen_eq_next h
    have move := engineStep_move next
    have rest := ih (move.engineOk ok) (move.answered answered) h
    by_cases phase : s.phase = .idle
    · rw [engineStep_idle phase] at next
      cases next
      have : s.stepsLeft = 0 := by simp only [State.stepsLeft, phase]
      omega
    · have := move.stepsLeft_lt ok answered phase
      omega

theorem idle_of_stepsLeft {s : State} (ok : s.EngineOk) (h : s.stepsLeft = 0) : s.phase = .idle := by
  cases phase : s.phase <;> simp only [State.stepsLeft, phase] at h
  case idle => rfl
  case mMark => bv_omega
  case mWr =>
    simp only [State.EngineOk, phase] at ok
    have := ok.1.windowSteps_bounds
    omega
  all_goals omega

theorem stepsLeft_le {s : State} (ok : s.EngineOk) : s.stepsLeft ≤ 1038 := by
  cases phase : s.phase <;> simp only [State.stepsLeft, phase]
  case mKgen | mRd | mWr =>
    simp only [State.EngineOk, phase] at ok
    have := ok.1.windowSteps_bounds
    omega
  all_goals omega

/-- Settles O49: of the 1038 steps each brings the end nearer (`runEngine_stepsLeft`), unless memory with side effects stops the
run. -/
theorem everyCommandCompletes : Obligations.EveryCommandCompletes := by
  intro s inv answered
  obtain ⟨-, -, -, ok, -⟩ := id inv
  rcases runEngine_next_or_device 1038 ok with ⟨t, next⟩ | ⟨a, -, stop⟩
  · have inv' := runEngine_inv inv next
    obtain ⟨-, busy, -, ok', -⟩ := inv'
    have idle : t.phase = .idle := idle_of_stepsLeft ok' (by
      have := runEngine_stepsLeft ok answered next
      have := stepsLeft_le ok
      omega)
    exact .inl ⟨t, next, idle, by simpa [idle] using busy⟩
  · exact .inr ⟨a, stop⟩

/-! wait_done (R101, R252, R254). -/

theorem step_of_waitDone {s : State} {k : Slack} {rest : List HostTurn} (host : s.host = waitDone k :: rest) :
    step s = State.poll { s with host := rest, slack := k } (waitDone k) := by
  rw [step_of_turn host]
  rfl

/-- Settles O8: a poll reads STATUS, and its BUSY bit decides whether the turn stays (`State.poll_eq`). -/
theorem waitDonePolls : Obligations.WaitDonePolls := by
  intro s k rest host
  rw [step_of_waitDone host, State.poll_eq]
  refine ⟨fun busy idle => ?_, fun busy => ?_⟩
  · rw [if_neg (by simp [busy])]
    exact runEngine_idle _ idle
  · rw [if_pos busy, ← host]
    rfl

/-- With no memory with side effects, a run always answers. -/
theorem runEngine_next_of_no_devices (n : Nat) {s : State} (ok : s.EngineOk) (devices : s.devices = []) :
    ∃ t, runEngine n s = .next t := by
  rcases runEngine_next_or_device n ok with next | ⟨a, device, -⟩
  · exact next
  · simp [State.isDevice, devices] at device

theorem runEngine_responses_suffix {n : Nat} {s t : State} (h : runEngine n s = .next t) : t.responses <:+ s.responses :=
  runEngine_keeps (P := fun t => t.responses <:+ s.responses)
    (fun _ _ suffix step => (engineStep_move step).responses_suffix.trans suffix) n List.suffix_rfl h

theorem runEngine_answered {n : Nat} {s t : State} (answered : s.Answered) (h : runEngine n s = .next t) : t.Answered :=
  fun hang => answered ((runEngine_responses_suffix h).subset hang)

theorem core_run_succ {s t : State} (n : Nat) (h : step s = .next t) :
    (Host.Core.run Sys2Proof.core (n + 1) s : Result) = (Host.Core.run Sys2Proof.core n t : Result) := by
  have next : Sys2Proof.core.step s = .next t := h
  simp only [Host.Core.run, next]

/-- A poll that finds BUSY = 1, with every transaction answered and no device, brings the end nearer and changes nothing that the
next poll needs. -/
theorem poll_again {s : State} {k : Slack} {rest : List HostTurn} (inv : Inv s) (answered : s.Answered)
    (devices : s.devices = []) (host : s.host = waitDone k :: rest) (busy : s.status.busy = true) :
    ∃ t, step s = .next t ∧ t.stepsLeft < s.stepsLeft ∧ Inv t ∧ t.Answered ∧ t.devices = [] ∧ t.host = waitDone k :: rest := by
  obtain ⟨-, running, -, ok, -⟩ := id inv
  let u := State.setTemp { s with slack := k } 0 s.status.toWord
  have polled : Inv u := inv_setTemp (s := { s with slack := k }) inv 0 _
  obtain ⟨t, next⟩ := runEngine_next_of_no_devices (s := u) (max 1 k.count) ok devices
  have keeps := runEngine_keepsHost next
  refine ⟨t, ((waitDonePolls s k rest host).2 busy).trans next, ?_, runEngine_inv polled next, runEngine_answered (s := u) answered next,
    keeps.devices.trans devices, keeps.host.trans host⟩
  have nearer : t.stepsLeft ≤ s.stepsLeft - max 1 k.count := runEngine_stepsLeft (s := u) ok answered next
  have : s.stepsLeft ≠ 0 := fun h => running.mp busy (idle_of_stepsLeft ok h)
  omega

/-- A host in wait_done polls at most once for each step that the engine has left, and once more (R252). -/
theorem waitDone_ends {s : State} {k : Slack} {rest : List HostTurn} (inv : Inv s) (answered : s.Answered)
    (devices : s.devices = []) (host : s.host = waitDone k :: rest) :
    ∃ (n : Nat) (t : State), n ≤ s.stepsLeft + 1 ∧ (Host.Core.run Sys2Proof.core n s : Result) = .next t ∧ t.host = rest ∧
      t.status.busy = false := by
  induction left : s.stepsLeft using Nat.strong_induction_on generalizing s with
  | _ m ih =>
    cases busy : s.status.busy with
    | false =>
      obtain ⟨-, running, -⟩ := inv
      have poll := (waitDonePolls s k rest host).1 busy (by simpa [busy] using running)
      exact ⟨1, _, by omega, core_run_succ 0 poll, rfl, busy⟩
    | true =>
      obtain ⟨t, next, nearer, inv', answered', devices', host'⟩ := poll_again inv answered devices host busy
      obtain ⟨n, u, few, run, done⟩ := ih _ (left ▸ nearer) inv' answered' devices' host' rfl
      exact ⟨n + 1, u, by omega, (core_run_succ n next).trans run, done⟩

/-- Settles O50: at most 1038 steps are left under the invariant, and each poll but the last takes one of them. -/
theorem waitDoneEnds : Obligations.WaitDoneEnds := by
  intro s k rest inv answered devices host
  obtain ⟨-, -, -, ok, -⟩ := id inv
  obtain ⟨n, t, few, run⟩ := waitDone_ends inv answered devices host
  exact ⟨n, t, few.trans (Nat.succ_le_succ (stepsLeft_le ok)), run⟩

end Sys2Proof.Machine

namespace Sys2Proof.Machine

/-! The reset input (R240, R242). -/

theorem State.readByte_abortedMem (s : State) (a : Nat) :
    Memory.read s.abortedMem a = s.readByte a ∨
      (s.phase = .mWr ∧ a = s.eng.windowAddr ∧ Memory.read s.abortedMem a = s.eng.maskedByte) := by
  unfold State.abortedMem
  split_ifs with flight
  · by_cases address : a = s.eng.windowAddr
    · exact .inr ⟨flight.1, address, by rw [address, Memory.read_write_self]⟩
    · exact .inl (Memory.read_write_of_ne _ _ address)
  · exact .inl rfl

/-- A reset leaves a byte that is in no race as it was, or masked if its write was in flight (R242). -/
theorem State.readByte_resetBlock (s : State) {a : Nat} (unraced : a ∉ s.raced) :
    s.resetBlock.readByte a = s.readByte a ∨
      (s.phase = .mWr ∧ a = s.eng.windowAddr ∧ s.resetBlock.readByte a = s.eng.maskedByte) := by
  have settled : s.resetBlock.readByte a = Memory.read s.abortedMem a :=
    Memory.read_settleRaces_of_not_mem _ _ _ unraced
  rw [settled]
  exact s.readByte_abortedMem a

theorem State.readReg_resetBlock (s : State) (r : Reg) : s.resetBlock.readReg r = 0 := by
  cases r with
  | key i => exact Vector.getElem_replicate ..
  | nonce i => exact Vector.getElem_replicate ..
  | ks i => exact Vector.getElem_replicate ..
  | status => exact (by decide : Status.reset.toWord = 0)
  | _ => rfl

theorem step_of_reset {s : State} {k : Slack} {rest : List HostTurn} (host : s.host = { op := .reset, slack := k } :: rest) :
    step s = .next (State.resetBlock { s with host := rest, slack := k }) := by
  rw [step_of_turn host]
  exact runEngine_idle _ rfl

/-- Settles O16: the reset leaves the engine IDLE, so no engine step follows it in its own turn. -/
theorem resetInputAborts : Obligations.ResetInputAborts := by
  intro s k rest host
  exact ⟨_, step_of_reset host, State.readReg_resetBlock _, rfl, rfl, rfl, rfl,
    fun a unraced => State.readByte_resetBlock { s with host := rest, slack := k } unraced⟩

/-! What a host turn leaves alone. -/

/-- What only the engine, an accepted command and a reset touch. -/
structure HostKeeps (s u : State) : Prop where
  status_busy : u.status.busy = s.status.busy
  winLen : u.winLen = s.winLen
  bytesDone : u.bytesDone = s.bytesDone
  blocks : u.blocks = s.blocks
  ks : u.ks = s.ks
  phase : u.phase = s.phase
  eng : u.eng = s.eng

theorem HostKeeps.refl (s : State) : HostKeeps s s := ⟨rfl, rfl, rfl, rfl, rfl, rfl, rfl⟩

theorem State.hostKeeps_writeOffset (s : State) (o : Nat) (v : Word) :
    HostKeeps s (s.writeOffset o v) ∧ (s.writeOffset o v).mem = s.mem ∧ (s.writeOffset o v).raced = s.raced := by
  unfold State.writeOffset
  cases Reg.ofOffset o with
  | none => exact ⟨.refl s, rfl, rfl⟩
  | some r => cases r <;> exact ⟨⟨rfl, rfl, rfl, rfl, rfl, rfl, rfl⟩, rfl, rfl⟩

theorem State.hostKeeps_hostStore (s : State) (a : Nat) (v : Byte) : HostKeeps s (s.hostStore a v) := by
  unfold State.hostStore
  split <;> exact ⟨rfl, rfl, rfl, rfl, rfl, rfl, rfl⟩

theorem State.hostKeeps_hostLoad (s : State) (a i : Nat) :
    HostKeeps s (s.hostLoad a i) ∧ (s.hostLoad a i).mem = s.mem ∧ (s.hostLoad a i).raced = s.raced := by
  unfold State.hostLoad
  split <;> exact ⟨⟨rfl, rfl, rfl, rfl, rfl, rfl, rfl⟩, rfl, rfl⟩

/-- How the state from which the engine runs, in the step from `s`, comes from `s`: a command is accepted, the host writes a byte
of memory, or nothing of what the engine works on changes. -/
inductive RunsFrom (s : State) : State → Prop where
  | accepted (a : PortAccess) (w : Word) (k : Slack) (rest : List HostTurn) : s.host = { op := .wr a w, slack := k } :: rest →
      a.offset = 0x000 → s.status.busy = false →
      RunsFrom s (State.acceptCommand { s with host := rest, slack := k } (decode w))
  | stored (d : DWord) (v : Byte) (k : Slack) (rest : List HostTurn) : s.host = { op := .memWr d v, slack := k } :: rest →
      RunsFrom s (State.hostStore { s with host := rest, slack := k } d.toNat v)
  | quiet (u : State) : HostKeeps s u → u.mem = s.mem → u.raced = s.raced → RunsFrom s u

/-- A turn taken off the list is none of what the engine works on. -/
theorem hostKeeps_of_turn {s u : State} (k : Slack) (rest : List HostTurn)
    (h : HostKeeps { s with host := rest, slack := k } u) : HostKeeps s u := by
  obtain ⟨⟩ := h
  constructor <;> assumption

theorem runsFrom_of_turn {s u : State} (k : Slack) (rest : List HostTurn)
    (h : HostKeeps { s with host := rest, slack := k } u ∧ u.mem = s.mem ∧ u.raced = s.raced) : RunsFrom s u :=
  .quiet u (hostKeeps_of_turn k rest h.1) h.2.1 h.2.2

theorem RunsFrom.accepted_or_keeps {s u : State} (h : RunsFrom s u) :
    (s.status.busy = false ∧ ∃ a w k rest, s.host = { op := .wr a w, slack := k } :: rest ∧ a.offset = 0x000 ∧
      u = State.acceptCommand { s with host := rest, slack := k } (decode w)) ∨ HostKeeps s u := by
  cases h with
  | accepted a w k rest host offset busy => exact .inl ⟨busy, a, w, k, rest, host, offset, rfl⟩
  | stored d v k rest => exact .inr (hostKeeps_of_turn k rest (State.hostKeeps_hostStore _ _ v))
  | quiet u keeps => exact .inr keeps

/-- A host turn that answers is a reset, or leads to a run of the engine from a state that `RunsFrom` names. -/
theorem HostMove.reset_or_runs {s t : State} {op : HostOp} {k : Slack} {rest : List HostTurn} {o : Result}
    (host : s.host = { op := op, slack := k } :: rest) (h : HostMove { s with host := rest, slack := k } op o)
    (next : o = .next t) :
    (op = .reset ∧ t = State.resetBlock { s with host := rest, slack := k }) ∨ ∃ n u, RunsFrom s u ∧ runEngine n u = .next t := by
  cases h with
  | command a w wf offset =>
    cases busy : s.status.busy with
    | false =>
      rw [State.issue_of_not_busy _ (by exact busy)] at next
      exact .inr ⟨_, _, .accepted a w k rest host offset busy, next⟩
    | true =>
      rw [State.issue_of_busy _ (by exact busy)] at next
      refine .inr ⟨_, _, ?_, next⟩
      exact runsFrom_of_turn k rest ⟨⟨rfl, rfl, rfl, rfl, rfl, rfl, rfl⟩, rfl, rfl⟩
  | write a v => 
    refine .inr ⟨_, _, ?_, next⟩
    exact runsFrom_of_turn k rest (State.hostKeeps_writeOffset _ _ v)
  | memWrite d v => exact .inr ⟨_, _, .stored d v k rest host, next⟩
  | memRead d i => 
    refine .inr ⟨_, _, ?_, next⟩
    exact runsFrom_of_turn k rest (State.hostKeeps_hostLoad _ _ i)
  | reset =>
    rw [advance, runEngine_idle _ rfl] at next
    cases next
    exact .inl ⟨rfl, rfl⟩
  | read | pollAgain | pollDone | pause =>
    refine .inr ⟨_, _, ?_, next⟩
    exact runsFrom_of_turn k rest ⟨⟨rfl, rfl, rfl, rfl, rfl, rfl, rfl⟩, rfl, rfl⟩
  | writeRefused | readRefused | memWriteRefused | memReadRefused => cases next

/-- Every step that answers is a reset, or a run of the engine from a state that `RunsFrom` names. -/
theorem step_reset_or_runs {s t : State} (next : step s = .next t) :
    (∃ k rest, s.host = { op := .reset, slack := k } :: rest ∧ t = State.resetBlock { s with host := rest, slack := k }) ∨
      ∃ n u, RunsFrom s u ∧ runEngine n u = .next t := by
  cases host : s.host with
  | nil =>
    rw [step_of_no_turn host] at next
    exact .inr ⟨1, s, .quiet s (.refl s) rfl rfl, by rw [runEngine_succ, next]; rfl⟩
  | cons turn rest =>
    obtain ⟨op, k⟩ := turn
    rcases (step_hostMove host).reset_or_runs host next with ⟨rfl, reset⟩ | runs
    · exact .inl ⟨k, rest, rfl, reset⟩
    · exact .inr runs

/-! KS and the result registers (R34, R94, R206, R246). -/

theorem WithinCommand.running_of_finish {u v : State} (h : WithinCommand u v) (finish : v.phase = .finish) : u.phase ≠ .idle :=
  fun idle => by simp [h.idle.mpr idle] at finish

/-- A run that changes a result register completes a command that was running. -/
theorem runEngine_results {n : Nat} {u t : State} (h : runEngine n u = .next t)
    (changed : t.winLen ≠ u.winLen ∨ t.bytesDone ≠ u.bytesDone ∨ t.blocks ≠ u.blocks) :
    (t.phase = .idle ∧ t.status.busy = false ∧ t.status.done = true) ∧ u.phase ≠ .idle := by
  rcases runEngine_within_or_completes h with within | ⟨v, within, finish, rfl⟩
  · simp [within.winLen, within.bytesDone, within.blocks] at changed
  · exact ⟨⟨rfl, rfl, rfl⟩, within.running_of_finish finish⟩

theorem writesKs_eq_true {op : Command} {c : OutcomeCode} :
    writesKs op c = true ↔ (op = .instr .genBlock ∨ op = .instr .genBlockFixed) ∧ c = .ok := by
  simp [writesKs]

/-- A run that changes KS0 to KS15 completes, with OK, a generator command that was running, with the block it had for KS. -/
theorem runEngine_ks {n : Nat} {u t : State} (h : runEngine n u = .next t) (changed : t.ks ≠ u.ks) :
    (t.phase = .idle ∧ t.status.busy = false ∧ t.status.done = true ∧ t.status.outcome = .ok) ∧ u.phase ≠ .idle ∧
      (u.eng.op = .instr .genBlock ∨ u.eng.op = .instr .genBlockFixed) ∧ t.ks = u.pendingKs := by
  rcases runEngine_within_or_completes h with within | ⟨v, within, finish, rfl⟩
  · exact absurd within.ks changed
  · by_cases writes : writesKs v.eng.op v.eng.res.outcome = true
    · obtain ⟨op, ok⟩ := writesKs_eq_true.mp writes
      have pending : v.pendingKs = v.eng.res.ks := by simp [State.pendingKs, finish]
      exact ⟨⟨rfl, rfl, rfl, ok⟩, within.running_of_finish finish, within.op ▸ op, by
        rw [State.finish_ks, if_pos writes, ← pending, within.pendingKs]⟩
    · rw [State.finish_ks, if_neg writes] at changed
      exact absurd within.ks changed

theorem State.acceptCommand_results (s : State) (c : Command) :
    (s.acceptCommand c).winLen = s.winLen ∧ (s.acceptCommand c).bytesDone = s.bytesDone ∧
      (s.acceptCommand c).blocks = s.blocks ∧ (s.acceptCommand c).ks = s.ks := by
  rcases c with (_ | _ | _) | why <;> exact ⟨rfl, rfl, rfl, rfl⟩

/-- BUSY = 1 in every state of the invariant whose engine runs (R40). -/
theorem busy_of_running {s : State} (running : s.phase ≠ .idle) (inv : Inv s) : s.status.busy = true := inv.2.1.mpr running

/-- Settles O56: no host turn but a reset touches the result registers, and a run of the engine changes them by a completion only
(`runEngine_results`). -/
theorem resultRegistersKeptUntilCompletion : Obligations.ResultRegistersKeptUntilCompletion := by
  intro s t next changed
  rcases step_reset_or_runs next with ⟨k, rest, host, -⟩ | ⟨n, u, runsFrom, run⟩
  · exact .inl ⟨k, rest, host⟩
  right
  rcases runsFrom.accepted_or_keeps with ⟨busy, a, w, k, rest, host, offset, rfl⟩ | keeps
  · obtain ⟨winLen, bytesDone, blocks, -⟩ := State.acceptCommand_results { s with host := rest, slack := k } (decode w)
    exact ⟨(runEngine_results run (by rwa [winLen, bytesDone, blocks])).1, .inr ⟨busy, a, w, k, rest, host, offset⟩⟩
  · obtain ⟨completed, running⟩ := runEngine_results run (by rwa [keeps.winLen, keeps.bytesDone, keeps.blocks])
    rw [keeps.phase] at running
    exact ⟨completed, .inl ⟨running, busy_of_running running⟩⟩

theorem State.acceptCommand_op (s : State) (c : Command) : (s.acceptCommand c).eng.op = c := by
  rcases c with (_ | _ | _) | why <;> rfl

/-- Settles O55: no host turn but a reset touches KS, and a run of the engine changes it by the completion of a generator command
only, with the block of its latches (`runEngine_ks`). -/
theorem onlyGeneratorCommandsWriteKs : Obligations.OnlyGeneratorCommandsWriteKs := by
  intro s t next changed
  rcases step_reset_or_runs next with ⟨k, rest, host, -⟩ | ⟨n, u, runsFrom, run⟩
  · exact .inl ⟨k, rest, host⟩
  right
  rcases runsFrom.accepted_or_keeps with ⟨busy, a, w, k, rest, host, offset, rfl⟩ | keeps
  · obtain ⟨-, -, -, ks⟩ := State.acceptCommand_results { s with host := rest, slack := k } (decode w)
    obtain ⟨completed, -, op, block⟩ := runEngine_ks run (by rwa [ks])
    refine ⟨completed, .inr ⟨busy, a, w, k, rest, host, offset, ?_⟩⟩
    rw [State.acceptCommand_op] at op
    rcases op with genBlock | genBlockFixed
    · exact .inl ⟨decode_eq_instr_iff.mp genBlock, by rw [block, genBlock]; exact if_pos rfl⟩
    · exact .inr ⟨decode_eq_instr_iff.mp genBlockFixed, by rw [block, genBlockFixed]; exact if_pos rfl⟩
  · obtain ⟨completed, running, op, block⟩ := runEngine_ks run (by rwa [keeps.ks])
    rw [keeps.phase] at running
    rw [keeps.eng] at op
    rw [State.pendingKs, keeps.phase, keeps.eng] at block
    exact ⟨completed, .inl ⟨running, busy_of_running running, op, fun gRun => by rwa [if_pos gRun] at block,
      fun notGRun => by rwa [if_neg notGRun] at block⟩⟩

/-! COUNTER (R26). -/

theorem State.issue_counter (s : State) (c : Command) : (s.issue (s.acceptCommand c)).counter = s.counter := by
  unfold State.issue
  split
  · rfl
  · rcases c with (_ | _ | _) | why <;> rfl

/-- Of all the offsets of the port only that of COUNTER writes COUNTER. -/
theorem State.writeOffset_counter (s : State) {o : Nat} (v : Word) (aligned : o % 4 = 0) :
    (s.writeOffset o v).counter = if o = 0x008 then v else s.counter := by
  split_ifs with offset
  · rw [offset]; rfl
  · unfold State.writeOffset
    cases found : Reg.ofOffset o with
    | none => rfl
    | some r =>
      have place := (Reg.ofOffset_eq_some_iff aligned r).mp found
      cases r with
      | counter => exact absurd place offset
      | _ => rfl

theorem HostMove.counter_changed {s t : State} {op : HostOp} {o : Result} (h : HostMove s op o) (next : o = .next t)
    (changed : t.counter ≠ s.counter) : op = .reset ∨ ∃ a v, op = .wr a v ∧ a.offset = 0x008 ∧ t.counter = v := by
  have kept {u : State} (engine : EngineKeeps u t) (host : u.counter = s.counter) : False :=
    changed (engine.counter.trans host)
  cases h with
  | command a w => exact (kept (advance_keeps next) (s.issue_counter _)).elim
  | write a v wf =>
    have written := s.writeOffset_counter v (PortAccess.aligned_of_wellFormed wf)
    split_ifs at written with offset
    · exact .inr ⟨a, v, rfl, offset, (advance_keeps next).counter.trans written⟩
    · exact (kept (advance_keeps next) written).elim
  | read => exact (kept (advance_keeps next) rfl).elim
  | pollAgain => exact (kept (advanceFair_keeps next) rfl).elim
  | pollDone => exact (kept (advance_keeps next) rfl).elim
  | memWrite d v => exact (kept (advance_keeps next) (by unfold State.hostStore; split <;> rfl)).elim
  | memRead d i => exact (kept (advance_keeps next) (by unfold State.hostLoad; split <;> rfl)).elim
  | reset => exact .inl rfl
  | pause => exact (kept (advance_keeps next) rfl).elim
  | writeRefused | readRefused | memWriteRefused | memReadRefused => cases next

/-- Settles O57: the engine keeps COUNTER (`EngineKeeps`), and of the host's turns only two kinds write it. -/
theorem onlyTheHostWritesCounter : Obligations.OnlyTheHostWritesCounter := by
  intro s t next changed
  cases host : s.host with
  | nil =>
    rw [step_of_no_turn host] at next
    exact absurd (engineStep_move next).keeps.counter changed
  | cons turn rest =>
    obtain ⟨op, k⟩ := turn
    rcases (step_hostMove host).counter_changed next changed with rfl | ⟨a, v, rfl, offset, written⟩
    · exact .inl ⟨k, rest, rfl⟩
    · exact .inr ⟨a, v, k, rest, rfl, offset, written⟩

/-! What the engine can change in memory (R64, R74, R165). -/

/-- The byte at `a` is in the window of the MASK_HEADER that runs (R161). -/
def State.InWindow (s : State) (a : Nat) : Prop :=
  s.phase ≠ .idle ∧ s.eng.op = .instr .maskHeader ∧ s.eng.base.toNat + 8 ≤ a ∧
    a < s.eng.base.toNat + 8 + min 0x200 (s.eng.size.toNat - 8)

/-- The byte that M_WR writes is in the window. -/
theorem State.EngineOk.inWindow {s : State} (ok : s.EngineOk) (phase : s.phase = .mWr) : s.InWindow s.eng.windowAddr := by
  simp only [State.EngineOk, phase] at ok
  obtain ⟨window, -⟩ := ok
  refine ⟨by simp [phase], window.1.1, ?_, window.windowAddr_lt.1⟩
  simp only [Engine.windowAddr, Config.hdrOffset]
  omega

/-- One move leaves a byte outside the window and in no race alone, and it stays so. -/
theorem EngineMove.memFrame {s t : State} (h : EngineMove s t) (ok : s.EngineOk) {a : Nat} (unraced : a ∉ s.raced)
    (outside : ¬ s.InWindow a) : a ∉ t.raced ∧ ¬ t.InWindow a ∧ t.readByte a = s.readByte a := by
  have read : t.readByte a = s.readByte a := by
    rcases h.mem_cases with kept | ⟨phase, -, v, written⟩ | ⟨-, settled⟩
    · rw [State.readByte, kept]; rfl
    · have other : a ≠ s.eng.windowAddr := fun same => outside (same ▸ ok.inWindow phase)
      rw [State.readByte, written, Memory.read_write_of_ne _ _ other]; rfl
    · rw [State.readByte, settled, Memory.read_settleRaces_of_not_mem _ _ _ unraced]; rfl
  rcases h.finish_or_within with ⟨-, rfl⟩ | within
  · exact ⟨nofun, fun inside => inside.1 rfl, read⟩
  · refine ⟨within.raced ▸ unraced, fun inside => outside ?_, read⟩
    simpa only [State.InWindow, ne_eq, within.idle, within.op, within.base, within.size] using inside

/-- A byte that a run changes was in a race or in the window as the run began. -/
theorem runEngine_changes {n : Nat} {s t : State} (h : runEngine n s = .next t) (ok : s.EngineOk) {a : Nat}
    (changed : t.readByte a ≠ s.readByte a) : a ∈ s.raced ∨ s.InWindow a := by
  by_contra untouched
  obtain ⟨unraced, outside⟩ := not_or.mp untouched
  have kept := runEngine_keeps (P := fun t => t.EngineOk ∧ a ∉ t.raced ∧ ¬ t.InWindow a ∧ t.readByte a = s.readByte a)
    (fun u v ⟨ok, unraced, outside, read⟩ next => by
      have move := engineStep_move next
      obtain ⟨unraced', outside', read'⟩ := move.memFrame ok unraced outside
      exact ⟨move.engineOk ok, unraced', outside', read'.trans read⟩) n ⟨ok, unraced, outside, rfl⟩ h
  obtain ⟨-, -, -, read⟩ := kept
  exact changed read

/-- What a running MASK_HEADER's window is under the invariant, in the words of O59. -/
theorem inWindow_of_inv {s : State} (inv : Inv s) {a : Nat} (h : s.InWindow a) :
    s.status.busy = true ∧ s.eng.op = .instr .maskHeader ∧ s.eng.base.toNat + 8 ≤ a ∧
      a < s.eng.base.toNat + 8 + min 0x200 (s.eng.size.toNat - 8) :=
  ⟨busy_of_running h.1 inv, h.2⟩

theorem HostKeeps.inWindow {s u : State} (h : HostKeeps s u) {a : Nat} : u.InWindow a ↔ s.InWindow a := by
  rw [State.InWindow, State.InWindow, h.phase, h.eng]

theorem State.readByte_hostStore_of_ne (s : State) {a b : Nat} (v : Byte) (h : b ≠ a) :
    (s.hostStore a v).readByte b = s.readByte b := by
  unfold State.hostStore
  split
  · exact readByte_stored_of_ne s v h
  · exact readByte_stored_of_ne s v h

theorem State.mem_raced_hostStore {s : State} {a b : Nat} {v : Byte} (h : b ∈ (s.hostStore a v).raced) :
    b = a ∨ b ∈ s.raced := by
  unfold State.hostStore at h
  split_ifs at h
  · exact .inr h
  · exact List.mem_cons.mp h
  · exact .inr h

theorem State.acceptCommand_raced (s : State) (c : Command) : (s.acceptCommand c).raced = [] := by
  rcases c with (_ | _ | _) | why <;> rfl

theorem readByte_congr {s t : State} (h : t.mem = s.mem) (a : Nat) : t.readByte a = s.readByte a := by
  rw [State.readByte, State.readByte, h]

theorem State.readByte_acceptCommand (s : State) (c : Command) (a : Nat) : (s.acceptCommand c).readByte a = s.readByte a := by
  rcases c with (_ | _ | _) | why <;> rfl

theorem HostKeeps.engineOk {s u : State} (h : HostKeeps s u) (raced : u.raced = s.raced) (ok : s.EngineOk) : u.EngineOk := by
  simpa only [State.EngineOk, h.phase, h.eng, raced] using ok

/-- The window of a MASK_HEADER just accepted is that of the buffer registers (R94, R96). -/
theorem inWindow_acceptCommand {s : State} {w : Word} {a : Nat} (h : (s.acceptCommand (decode w)).InWindow a) :
    w = 0x00000003 ∧ s.bufBase.toNat + 8 ≤ a ∧ a < s.bufBase.toNat + 8 + min 0x200 (s.bufSize.toNat - 8) := by
  obtain ⟨-, op, inside⟩ := h
  rw [State.acceptCommand_op] at op
  rw [op] at inside
  exact ⟨decode_eq_instr_iff.mp op, inside⟩

/-- Settles O59: a run of the engine changes raced bytes and window bytes only (`runEngine_changes`), and the state it starts from
differs from the step's own by the byte that the host writes, or by the latches of an accepted command. -/
theorem onlyWindowRaceAndHostWritesChangeMemory : Obligations.OnlyWindowRaceAndHostWritesChangeMemory := by
  intro s t a inv next changed
  obtain ⟨-, -, -, ok, -⟩ := id inv
  rcases step_reset_or_runs next with ⟨k, rest, host, rfl⟩ | ⟨n, u, runsFrom, run⟩
  · by_cases raced : a ∈ s.raced
    · exact .inr (.inl raced)
    · rcases State.readByte_resetBlock { s with host := rest, slack := k } raced with kept | ⟨phase, rfl, -⟩
      · exact absurd kept changed
      · exact .inr (.inr (.inl (inWindow_of_inv inv (ok.inWindow phase))))
  cases runsFrom with
  | accepted p w k rest host offset busy =>
    have accepted : Inv (State.acceptCommand { s with host := rest, slack := k } (decode w)) := inv_acceptCommand (by exact inv) _
    obtain ⟨-, -, -, ok', -⟩ := accepted
    have changed' := runEngine_changes (a := a) run ok' (by rwa [State.readByte_acceptCommand])
    rw [State.acceptCommand_raced] at changed'
    obtain ⟨rfl, inside⟩ := inWindow_acceptCommand (changed'.resolve_left nofun)
    exact .inr (.inr (.inr ⟨busy, ⟨p, k, rest, host, offset⟩, inside⟩))
  | stored d v k rest host =>
    by_cases written : a = d.toNat
    · exact .inl ⟨d, v, k, rest, host, written⟩
    have stored : Inv (State.hostStore { s with host := rest, slack := k } d.toNat v) := inv_hostStore (by exact inv) d.isLt v
    obtain ⟨-, -, -, ok', -⟩ := stored
    rcases runEngine_changes run ok' (by rwa [State.readByte_hostStore_of_ne _ v written]) with raced | inside
    · exact .inr (.inl ((State.mem_raced_hostStore raced).resolve_left written))
    · have keeps : HostKeeps s _ := hostKeeps_of_turn k rest (State.hostKeeps_hostStore _ d.toNat v)
      exact .inr (.inr (.inl (inWindow_of_inv inv (keeps.inWindow.mp inside))))
  | quiet u keeps mem raced =>
    rcases runEngine_changes run (keeps.engineOk raced ok) (a := a) (by rwa [readByte_congr mem]) with race | inside
    · exact .inr (.inl (raced ▸ race))
    · exact .inr (.inr (.inl (inWindow_of_inv inv (keeps.inWindow.mp inside))))

/-! The frames of the commands (R131, R160, R165). -/

/-- Settles O38: the engine keeps the operand registers and the host's side (`EngineKeeps`), only a generator command writes KS
(`runEngine_ks`), and memory changes in the window of the latched buffer only (`runEngine_changes`). -/
theorem maskHeaderFrame : Obligations.MaskHeaderFrame := by
  intro s t busy next
  rw [exec_eq_issue, State.issue_of_not_busy _ busy] at next
  have keeps := advance_keeps next
  refine ⟨keeps.counter, keeps.key, keeps.nonce, keeps.bufBaseLo, keeps.bufBaseHi, keeps.bufSizeLo, keeps.bufSizeHi, ?_,
    keeps.cmdDropped, keeps.devices, keeps.host, keeps.temps, fun a outside => ?_⟩
  · by_contra changed
    obtain ⟨-, -, op, -⟩ := runEngine_ks next changed
    rcases op with op | op <;> cases op
  · by_contra changed
    have ok : (s.acceptCommand (.instr .maskHeader)).EngineOk := ⟨rfl, rfl, rfl⟩
    rcases runEngine_changes next ok changed with raced | inside
    · cases raced
    · exact outside inside.2.2

end Sys2Proof.Machine

namespace Sys2Proof.Machine

/-! The command word (R90 to R94). -/

/-- Settles O1. -/
theorem tableWordsDecode : Obligations.TableWordsDecode := by unfold Obligations.TableWordsDecode; decide

/-- R92: with RSVD = 0 the bad commands are those whose OP has no row. -/
theorem reservedOp_iff (op : BitVec 4) : ¬ (op = 0x1 ∨ op = 0x2 ∨ op = 0x3) ↔ op = 0x0 ∨ 0x4 ≤ op.toNat := by
  revert op; decide

theorem decode_of_rsvd {w : Word} (h : rsvdField w ≠ 0) : decode w = .bad .reservedBits := if_pos h

theorem decode_eq_reservedOp_iff {w : Word} (h : rsvdField w = 0) :
    decode w = .bad .reservedOp ↔ ¬ (opField w = 0x1 ∨ opField w = 0x2 ∨ opField w = 0x3) := by
  rw [decode, if_neg (not_not.mpr h)]
  split_ifs with op1 op2 op3
  · exact iff_of_false nofun (fun none => none (.inl op1))
  · exact iff_of_false nofun (fun none => none (.inr (.inl op2)))
  · exact iff_of_false nofun (fun none => none (.inr (.inr op3)))
  · exact iff_of_true rfl (fun some => some.elim op1 (fun rest => rest.elim op2 op3))

theorem decode_ne_reservedBits {w : Word} (h : rsvdField w = 0) : decode w ≠ .bad .reservedBits := by
  rw [decode, if_neg (not_not.mpr h)]
  split_ifs <;> exact nofun

/-- Settles O3: RSVD is judged first, and then OP. -/
theorem badCommandWords : Obligations.BadCommandWords := by
  intro w
  by_cases rsvd : rsvdField w = 0
  · exact ⟨iff_of_false (decode_ne_reservedBits rsvd) (not_not.mpr rsvd),
      by rw [decode_eq_reservedOp_iff rsvd, reservedOp_iff, and_iff_right rsvd]⟩
  · rw [decode_of_rsvd rsvd]
    exact ⟨iff_of_true rfl rsvd, iff_of_false nofun fun h => rsvd h.1⟩

/-- Settles O4. -/
theorem stepRunsTheDecodedCommand : Obligations.StepRunsTheDecodedCommand := by
  intro s w k rest i host decoded
  rw [step_of_commandTurn host, decoded, exec_eq_issue]

/-- FINISH, with no byte in a race, of a command accepted in `s` and not a generator's (R206): the engine's state `e`, phase and
STATUS of the running command are gone. -/
theorem finish_raise_eq_completedBy {s : State} {e : Engine} {p : Phase} (c : OutcomeCode) (w d b : Word)
    (noKs : writesKs e.op c = false) : ((s.accept e p).raise c w d b).finish = s.completedBy c w d b := by
  simp [State.finish, State.raise, State.accept, State.completedBy, settleRaces, Status.accepted, Status.completed, noKs]

/-- Settles O5: acceptance goes straight to FINISH, and one engine step is left for it. -/
theorem badCommandCompletes : Obligations.BadCommandCompletes := by
  intro s w k rest why host decoded busy room
  rw [step_of_commandTurn host, decoded, State.issue_of_not_busy _ (by exact busy), advance, runEngine_finish rfl (by exact room)]
  exact congrArg _ (finish_raise_eq_completedBy (p := s.phase) .errBadCmd 0 0 0 rfl)

/-! The register port (R97, R98). -/

theorem portRefusal_of_width {a : PortAccess} (h : a.width ≠ 4) : portRefusal a = some (.portWidth a.width) := by
  simp [portRefusal, PortAccess.widthOk, h]

theorem portRefusal_of_outside {a : PortAccess} (width : a.width = 4) (h : 0x100 ≤ a.offset) :
    portRefusal a = some (.portOutside a.offset) := by
  have outside : a.inBlock = false := decide_eq_false (not_lt.mpr h)
  simp [portRefusal, PortAccess.widthOk, outside, width]

theorem portRefusal_of_misaligned {a : PortAccess} (width : a.width = 4) (inBlock : a.offset < 0x100) (h : a.offset % 4 ≠ 0) :
    portRefusal a = some (.portMisaligned a.offset) := by
  simp [portRefusal, PortAccess.widthOk, PortAccess.inBlock, PortAccess.aligned, Config.regSpan, width, inBlock, h]

/-- A host access that the port refuses is refused by the step, a write or a read alike. -/
theorem step_of_portRefusal {s : State} {a : PortAccess} {v : Word} {t : Nat} {k : Slack} {rest : List HostTurn} {r : Refusal}
    (host : s.host = { op := .wr a v, slack := k } :: rest ∨ s.host = { op := .rd a t, slack := k } :: rest)
    (refusal : portRefusal a = some r) : step s = .refused r := by
  rcases host with host | host <;> rw [step_of_turn host] <;> simp only [hostTurn, refusal]

/-- Settles O6. -/
theorem portAccessesOutsideTheRulesAreRefused : Obligations.PortAccessesOutsideTheRulesAreRefused := fun _ _ _ _ _ _ host =>
  ⟨fun width => step_of_portRefusal host (portRefusal_of_width width),
    fun width outside => step_of_portRefusal host (portRefusal_of_outside width outside),
    fun width inBlock misaligned => step_of_portRefusal host (portRefusal_of_misaligned width inBlock misaligned)⟩

theorem portRefusal_aligned {o : Nat} (inBlock : o < 0x100) (aligned : o % 4 = 0) :
    portRefusal { offset := o, width := 4 } = none := by
  simp [portRefusal, PortAccess.widthOk, PortAccess.inBlock, PortAccess.aligned, Config.regSpan, inBlock, aligned]

/-- Settles O7: with no slack the engine takes no step after the access. -/
theorem portReadsAndWritesTakeEffect : Obligations.PortReadsAndWritesTakeEffect := by
  intro s o v t rest inBlock aligned
  have accepted := portRefusal_aligned inBlock aligned
  refine ⟨fun host notCmd => ?_, fun host => ?_⟩
  · have noCommand : Reg.ofOffset o ≠ some .cmd := mt (Reg.ofOffset_eq_some_iff aligned .cmd).mp notCmd
    have noSlack : (State.writeOffset { s with host := rest, slack := .steps 0 } o v).slack = .steps 0 := by
      unfold State.writeOffset
      cases Reg.ofOffset o with
      | none => rfl
      | some r => cases r <;> rfl
    rw [step_of_turn host]
    simp only [hostTurn, accepted, if_neg noCommand, advance, noSlack]
    rfl
  · rw [step_of_turn host]
    simp only [hostTurn, accepted]
    rfl

theorem exec_of_busy (i : Instr) {s : State} (busy : s.status.busy = true) : exec i s = advance s.dropCommand := by
  rw [exec_eq_issue, State.issue_of_busy _ busy]

theorem exec_of_not_busy (i : Instr) {s : State} (busy : s.status.busy = false) :
    exec i s = advance (s.acceptCommand (.instr i)) := by
  rw [exec_eq_issue, State.issue_of_not_busy _ busy]

theorem advance_of_no_slack {s : State} (h : s.slack = .steps 0) : advance s = .next s := by
  rw [advance, h]
  rfl

/-- Settles O9: the FINISH step lies between BUSY = 1, where the write is dropped, and BUSY = 0, where it is accepted. -/
theorem commandAroundFinishBothOrders : Obligations.CommandAroundFinishBothOrders := by
  intro s i busy finish noSlack
  refine ⟨by rw [exec_of_busy i busy, advance_of_no_slack (by exact noSlack)]; rfl,
    s.finish, s.finish.acceptCommand (.instr i), engineStep_finish finish, ?_, ?_, ?_⟩
  · rw [exec_of_not_busy i rfl, advance_of_no_slack (by cases i <;> exact noSlack)]
  · rw [State.acceptCommand_status]; rfl
  · rw [State.acceptCommand_status]; rfl

/-- Settles O10. -/
theorem everyRegisterAtItsOffset : Obligations.EveryRegisterAtItsOffset :=
  ⟨Reg.ofOffset_offset, fun _ r aligned found => (Reg.ofOffset_eq_some_iff aligned r).mp found⟩

/-- A write to an RW register reads back. -/
theorem readReg_writeReg_same (s : State) {r : Reg} (v : Word) (isRw : r.access = .rw) : (s.writeReg r v).readReg r = v := by
  cases r with
  | key i => exact Vector.getElem_set_self i.isLt
  | nonce i => exact Vector.getElem_set_self i.isLt
  | counter | bufBaseLo | bufBaseHi | bufSizeLo | bufSizeHi => rfl
  | cmd | status | winLen | bytesDone | blocks | ks => cases isRw

/-- A write to a register changes no other register. -/
theorem readReg_writeReg_of_ne (s : State) {r q : Reg} (v : Word) (h : q ≠ r) : (s.writeReg r v).readReg q = s.readReg q := by
  cases r <;> cases q
  case key.key i j => exact Vector.getElem_set_ne i.isLt j.isLt fun e => h (congrArg Reg.key (Fin.ext e.symm))
  case nonce.nonce i j => exact Vector.getElem_set_ne i.isLt j.isLt fun e => h (congrArg Reg.nonce (Fin.ext e.symm))
  case status.status | counter.counter | bufBaseLo.bufBaseLo | bufBaseHi.bufBaseHi | bufSizeLo.bufSizeLo | bufSizeHi.bufSizeHi =>
    exact absurd rfl h
  all_goals rfl

/-- Settles O12. -/
theorem registerWriteReadsBack : Obligations.RegisterWriteReadsBack := by
  intro s r v
  refine ⟨fun isRw => ⟨readReg_writeReg_same s v isRw, fun q => readReg_writeReg_of_ne s v⟩, fun isRo => ?_, ?_, rfl, rfl⟩
  · cases r with
    | winLen | bytesDone | blocks | ks => rfl
    | _ => cases isRo
  · cases r <;> simp [Reg.access]

/-- Settles O13. -/
theorem statusWriteClearsOnlyDropped : Obligations.StatusWriteClearsOnlyDropped := by
  intro s v
  have dropped : (s.status.cmdDropped && !v.getLsbD 3) = if v.getLsbD 3 then false else s.status.cmdDropped := by
    cases v.getLsbD 3 <;> simp
  simp only [State.writeReg, Status.hostWrite, dropped]

/-- The bits of STATUS above BUSY, bit by bit (R25). -/
theorem Status.toWord_bits (t : Status) :
    t.toWord.getLsbD 1 = t.done ∧ t.toWord.getLsbD 2 = t.diag ∧ t.toWord.getLsbD 3 = t.cmdDropped ∧
      t.toWord.extractLsb' 4 4 = t.outcome.code := by
  obtain ⟨busy, done, diag, dropped, outcome⟩ := t
  cases outcome <;> revert busy done diag dropped <;> decide

/-- Settles O14. -/
theorem statusWordFields : Obligations.StatusWordFields := by
  intro s
  obtain ⟨done, diag, dropped, outcome⟩ := s.status.toWord_bits
  refine ⟨s.status.toWord_bit0, done, diag, dropped, ?_, s.status.toWord_reserved_bits⟩
  rw [State.readReg, outcome]
  cases s.status.outcome <;> rfl

/-- Settles O15: the registers of the state after reset are those that the reset input leaves. -/
theorem resetReadsZeroEverywhere : Obligations.ResetReadsZeroEverywhere := by
  refine ⟨fun o => ?_, rfl⟩
  unfold State.readOffset
  cases Reg.ofOffset o with
  | none => rfl
  | some r => exact State.readReg_resetBlock State.reset r

/-- Settles O19. -/
theorem acceptanceLatchesOperands : Obligations.AcceptanceLatchesOperands := by
  intro s busy noSlack
  refine ⟨?_, ?_, ?_⟩
  all_goals
    rw [exec_of_not_busy _ busy, advance_of_no_slack (by exact noSlack)]
    rfl

/-- Settles O58. -/
theorem memoryReadAfterWrite : Obligations.MemoryReadAfterWrite := by
  intro m a b v
  split_ifs with same
  · rw [same, Memory.read_write_self]
  · exact Memory.read_write_of_ne m v same

/-- A run whose first step changes nothing changes nothing. -/
theorem runEngine_of_fixed {s : State} (h : engineStep s = .next s) (n : Nat) : runEngine n s = .next s := by
  induction n with
  | zero => rfl
  | succ n ih => rw [runEngine_succ, h, andThen_next, ih]

/-- Settles O51: the engine step of a phase that waits for an answer which never comes changes nothing (`transact_never`). -/
theorem unansweredTransactionHangs : Obligations.UnansweredTransactionHangs := by
  intro s rs n never waits
  refine runEngine_of_fixed ?_ n
  rcases waits with ⟨phase, range, ordinary⟩ | ⟨phase | phase, range, ordinary⟩
  · rw [engineStep_mMark phase, State.stepMMark, memRead]
    exact transact_never range ordinary never
  · rw [engineStep_mRd phase, State.stepMRd, memRead]
    exact transact_never range ordinary never
  · rw [engineStep_mWr phase, State.stepMWr, memWrite]
    exact transact_never range ordinary never

end Sys2Proof.Machine

namespace Sys2Proof.Machine

/-! The generator commands (R127, R128, R131, R206). -/

/-- G_RUN and FINISH: what a generator command that has latched key, nonce and counter comes to. -/
theorem runEngine_generator {s : State} {e : Engine} {n : Nat} (room : 2 ≤ n) (op : writesKs e.op .ok = true) :
    runEngine n (s.accept e .gRun) =
      .next { (s.worked 1 0).completedBy .ok 0 0 1 with ks := blockWords e.key e.counter e.nonce } := by
  rw [runEngine_of_step (engineStep_gRun rfl) (by omega), runEngine_finish (State.stepGRun_phase _) (by omega)]
  simp [State.finish, State.stepGRun, State.releaseWork, State.blockOnWork_eq, State.accept, State.completedBy, State.worked,
    settleRaces, Status.accepted, Status.completed, op]

/-- Settles O26. -/
theorem genBlockCompletes : Obligations.GenBlockCompletes := by
  intro s busy room
  rw [exec_of_not_busy _ busy]
  exact runEngine_generator room rfl

/-- Settles O27. -/
theorem genBlockFixedCompletes : Obligations.GenBlockFixedCompletes := by
  intro s busy room
  rw [exec_of_not_busy _ busy]
  exact runEngine_generator room rfl

theorem readOffset_ks (s : State) (i : Fin 16) : s.readOffset (0x080 + 4 * i.val) = s.ks[i] := by
  show s.readOffset (Reg.ks i).offset = _
  rw [State.readOffset, Reg.ofOffset_offset]
  rfl

/-- Settles O28: byte `j` of the keystream is byte `j mod 4` of word `j div 4` (R126), which KS(j div 4) holds. -/
theorem keystreamReadThroughTheRegisters : Obligations.KeystreamReadThroughTheRegisters := by
  intro s busy room
  refine ⟨_, genBlockCompletes s busy room, fun j => ?_⟩
  rw [readOffset_ks _ ⟨j.val / 4, by omega⟩]
  exact (getElem_le32StoreAll (blockWords s.keyFromRegs s.counter s.nonceFromRegs) (j := j.val) (by omega)).symm

theorem le32StoreAll_zero (n : Nat) : le32StoreAll (Vector.replicate n 0) = Vector.replicate (4 * n) 0 := by
  ext j hj
  rw [getElem_le32StoreAll, Vector.getElem_replicate, Vector.getElem_replicate]
  simp [byteOf]

/-- Settles O17. -/
theorem genBlockRightAfterReset : Obligations.GenBlockRightAfterReset := by
  have host : (State.reset.withFetchWord 32 0x00000001).host = commandTurn 0x00000001 .untilIdle :: [] := rfl
  refine ⟨_, (stepRunsTheDecodedCommand _ _ _ _ .genBlock host (by decide)).trans (genBlockCompletes _ rfl (by decide)), rfl, ?_⟩
  have key : State.reset.keyFromRegs = Vector.replicate 32 0 := le32StoreAll_zero 8
  have nonce : State.reset.nonceFromRegs = Vector.replicate 12 0 := le32StoreAll_zero 3
  rw [← key, ← nonce]
  rfl

/-- What a generator command that runs, or has just run, leaves alone. -/
structure State.GeneratorRun (s u : State) : Prop where
  mem : u.mem = s.mem
  responses : u.responses = s.responses
  unraced : u.raced = []
  phase : u.phase = .gRun ∨ u.phase = .finish ∨ u.phase = .idle

/-- A generator command goes from G_RUN to FINISH to IDLE, and none of the three makes a transaction (R131). -/
theorem EngineMove.generatorRun {s u t : State} (h : EngineMove u t) (run : s.GeneratorRun u) : s.GeneratorRun t := by
  obtain ⟨mem, responses, unraced, phase⟩ := run
  cases h with
  | idle | never => exact ⟨mem, responses, unraced, phase⟩
  | gRun => exact ⟨mem, responses, unraced, .inr (.inl rfl)⟩
  | finish => exact ⟨by rw [State.finish_mem, unraced]; exact mem, responses, rfl, .inr (.inr rfl)⟩
  | mCheck here | mMark _ _ here | mMarkErr _ here | mKgen here | mRd _ _ here | mRdErr _ here | mWr here | mWrErr _ here =>
    simp [here] at phase

theorem generatorRun_of_accept {s t : State} {e : Engine} {n : Nat} (h : runEngine n (s.accept e .gRun) = .next t) :
    s.GeneratorRun t := by
  have start : s.GeneratorRun (s.accept e .gRun) := ⟨rfl, rfl, rfl, .inl rfl⟩
  exact runEngine_keeps (fun _ _ run step => (engineStep_move step).generatorRun run) n start h

/-- Settles O41: a generator command makes no transaction (`State.GeneratorRun`), and no engine move touches the operand registers or
the host's side (`EngineKeeps`). -/
theorem generatorFrame : Obligations.GeneratorFrame := by
  intro s t busy next
  obtain ⟨e, n, run⟩ : ∃ e n, runEngine n (s.accept e .gRun) = .next t := by
    rw [exec_of_not_busy _ busy, exec_of_not_busy _ busy] at next
    exact next.elim (fun run => ⟨_, _, run⟩) fun run => ⟨_, _, run⟩
  obtain ⟨mem, responses, -⟩ := generatorRun_of_accept run
  have keeps := runEngine_keepsHost run
  exact ⟨mem, responses, keeps.counter, keeps.key, keeps.nonce, keeps.bufBaseLo, keeps.bufBaseHi, keeps.bufSizeLo,
    keeps.bufSizeHi, keeps.cmdDropped, keeps.devices, keeps.host, keeps.temps⟩

end Sys2Proof.Machine

namespace Sys2Proof.Machine

/-! A MASK_HEADER on its way (R168), in terms of the state `s` in which it was accepted. -/

/-- The state of a command accepted in `s`, once `b` keystream blocks are computed and `k` answers of the memory used: the engine
has come to `e` and `p`, memory to `m`. -/
def State.during (s : State) (b k : Nat) (p : Phase) (e : Engine) (m : List Host.Cell) : State :=
  { (s.worked b k).accept e p with mem := m }

section During

variable (s : State) (b k : Nat) (p : Phase) (e : Engine) (m : List Host.Cell)

@[simp] theorem State.during_phase : (s.during b k p e m).phase = p := rfl
@[simp] theorem State.during_eng : (s.during b k p e m).eng = e := rfl
@[simp] theorem State.during_mem : (s.during b k p e m).mem = m := rfl
@[simp] theorem State.during_raced : (s.during b k p e m).raced = [] := rfl
@[simp] theorem State.during_responses : (s.during b k p e m).responses = s.responses.drop k := rfl
@[simp] theorem State.during_isDevice (a : Nat) : (s.during b k p e m).isDevice a = s.isDevice a := rfl
@[simp] theorem State.during_readByte (a : Nat) : (s.during b k p e m).readByte a = Memory.read m a := rfl

/-- One more answer used. -/
theorem State.during_tail :
    { s.during b k p e m with responses := (s.during b k p e m).responses.tail } = s.during b (k + 1) p e m := by
  simp [State.during, State.worked, State.accept]

/-- The FINISH step of a command that is no generator's. -/
theorem State.finish_raise_during (c : OutcomeCode) (w d l : Word) (noKs : writesKs e.op c = false) :
    ((s.during b k p e m).raise c w d l).finish = { (s.worked b k).completedBy c w d l with mem := m } := by
  simp [State.finish, State.raise, State.during, State.accept, State.completedBy, settleRaces, Status.accepted, Status.completed,
    noKs, State.worked]

end During

/-- A result raised, and one more engine step: the command is complete. -/
theorem runEngine_raise_during (s : State) (b k : Nat) (p : Phase) {e : Engine} (m : List Host.Cell) {n : Nat} (hn : 1 ≤ n)
    (c : OutcomeCode) (w d l : Word) (noKs : writesKs e.op c = false) :
    runEngine n ((s.during b k p e m).raise c w d l) = .next { (s.worked b k).completedBy c w d l with mem := m } := by
  rw [runEngine_finish rfl hn, State.finish_raise_during _ _ _ _ _ _ _ _ _ _ noKs]

/-- Ordinary memory at an address of the memory space (R41, R67). -/
def State.Ordinary (s : State) (a : Nat) : Prop := a < Config.memSpan ∧ s.isDevice a = false

/-- The memory's answer number `k` to come is OK (past the end of the list every answer is). -/
def State.OkAt (s : State) (k : Nat) : Prop := ∀ r ∈ s.responses[k]?, r = .ok

section Transactions

variable {s : State} {b k : Nat} {p : Phase} {e : Engine} {m : List Host.Cell} {a : Nat} {onErr : State → Result}

theorem during_answer_ok (answer : s.OkAt k) : ∀ r ∈ (s.during b k p e m).responses.head?, r = .ok := by
  rwa [State.during_responses, List.head?_drop]

theorem during_answer_busErr (answer : s.responses[k]? = some .busErr) :
    (s.during b k p e m).responses = .busErr :: s.responses.drop (k + 1) := by
  obtain ⟨bound, answer⟩ := List.getElem?_eq_some_iff.mp answer
  rw [State.during_responses, List.drop_eq_getElem_cons bound, answer]

theorem memRead_during_ok {onOk : Byte → State → Result} (ordinary : s.Ordinary a) (answer : s.OkAt k) :
    memRead (s.during b k p e m) a onOk onErr = onOk (Memory.read m a) (s.during b (k + 1) p e m) := by
  rw [memRead_ok (s := s.during b k p e m) ordinary.1 ordinary.2 (during_answer_ok answer) (by simp), State.during_tail,
    State.during_readByte]

theorem memRead_during_busErr {onOk : Byte → State → Result} (ordinary : s.Ordinary a)
    (answer : s.responses[k]? = some .busErr) :
    memRead (s.during b k p e m) a onOk onErr = onErr (s.during b (k + 1) p e m) :=
  memRead_busErr ordinary.1 ordinary.2 (during_answer_busErr answer)

theorem memWrite_during_ok {onOk : State → Result} {v : Byte} (ordinary : s.Ordinary a) (answer : s.OkAt k) :
    memWrite (s.during b k p e m) a v onOk onErr = onOk (s.during b (k + 1) p e (Memory.write m a v)) := by
  rw [memWrite_ok (s := s.during b k p e m) ordinary.1 ordinary.2 (during_answer_ok answer), State.during_tail]
  rfl

theorem memWrite_during_busErr {onOk : State → Result} {v : Byte} (ordinary : s.Ordinary a)
    (answer : s.responses[k]? = some .busErr) :
    memWrite (s.during b k p e m) a v onOk onErr = onErr ((s.during b (k + 1) p e m).storeFailed a) :=
  memWrite_busErr ordinary.1 ordinary.2 (during_answer_busErr answer)

end Transactions

/-! From acceptance to M_CHECK (R94, R151). -/

/-- The latches of a MASK_HEADER accepted in `s` (R94, R96). -/
structure State.Latched (s : State) (e : Engine) : Prop where
  op : e.op = .instr .maskHeader
  key : e.key = Config.fixedKey
  nonce : e.nonce = Config.fixedNonce
  base : e.base = s.bufBase
  size : e.size = s.bufSize

/-- The engine as a MASK_HEADER accepted in `s` finds it. -/
def State.maskLatches (s : State) : Engine :=
  { s.eng with
    op := .instr .maskHeader, key := Config.fixedKey, nonce := Config.fixedNonce, base := s.bufBase, size := s.bufSize }

theorem State.latched_maskLatches (s : State) : s.Latched s.maskLatches := ⟨rfl, rfl, rfl, rfl, rfl⟩

theorem State.Latched.noKs {s : State} {e : Engine} (h : s.Latched e) (c : OutcomeCode) : writesKs e.op c = false := by
  rw [h.op]; rfl

theorem exec_maskHeader {s : State} (busy : s.status.busy = false) :
    exec .maskHeader s = runEngine s.slack.count (s.accept s.maskLatches .mCheck) :=
  exec_of_not_busy _ busy

/-- A MASK_HEADER that M_CHECK ends (R151): no transaction, and memory as it was. -/
theorem exec_of_checked {s : State} (busy : s.status.busy = false) (room : 2 ≤ s.slack.count) (c : OutcomeCode)
    (checked : (s.accept s.maskLatches .mCheck).stepMCheck = (s.accept s.maskLatches .mCheck).raise c 0 0 0) :
    exec .maskHeader s = .next (s.completedBy c 0 0 0) := by
  rw [exec_maskHeader busy, runEngine_of_step (engineStep_mCheck rfl) (by omega), checked, runEngine_finish rfl (by omega),
    finish_raise_eq_completedBy _ _ _ _ (s.latched_maskLatches.noKs c)]

theorem ne_zero_of_toNat {v : DWord} (h : 1 ≤ v.toNat) : v ≠ 0 := by
  rintro rfl
  simp at h

/-- Settles O29. -/
theorem maskHeaderSkipsEmpty : Obligations.MaskHeaderSkipsEmpty := fun _ busy room empty =>
  exec_of_checked busy room .skipEmpty (stepMCheck_of_empty (BitVec.eq_of_toNat_eq empty))

/-- Settles O30. -/
theorem maskHeaderChecksTheAddressRange : Obligations.MaskHeaderChecksTheAddressRange := fun _ busy room nonempty range =>
  exec_of_checked busy room .errAddrRange (stepMCheck_of_range (ne_zero_of_toNat nonempty) range)

/-- Settles O31. -/
theorem maskHeaderSkipsTooSmallForTheHeader : Obligations.MaskHeaderSkipsTooSmallForTheHeader :=
  fun _ busy room nonempty small range =>
    exec_of_checked busy room .skipTooSmallHeader
      (stepMCheck_of_small (ne_zero_of_toNat nonempty) range (Nat.lt_succ_of_le small))

/-- Settles O18. -/
theorem maskHeaderRightAfterReset : Obligations.MaskHeaderRightAfterReset := by
  have host : (State.reset.withFetchWord 32 0x00000003).host = commandTurn 0x00000003 .untilIdle :: [] := rfl
  exact ⟨_, (stepRunsTheDecodedCommand _ _ _ _ .maskHeader host (by decide)).trans (maskHeaderSkipsEmpty _ rfl (by decide) rfl),
    rfl, rfl⟩

end Sys2Proof.Machine

namespace Sys2Proof.Machine

/-! The marker reads (R155 to R157). -/

/-- The engine in M_MARK once `k` marker bytes are read, the buffer being that of `s`. -/
structure State.Marked (s : State) (k : Nat) (e : Engine) : Prop where
  latched : s.Latched e
  count : e.markCount.toNat = k
  bytes : ∀ j (h : j < 4), j < k → e.mark[j] = s.readByte (s.bufBase.toNat + j)

/-- A buffer that M_CHECK lets through (R151, R158), in ordinary memory (R67). -/
structure State.GoodBuffer (s : State) : Prop where
  size : 8 ≤ s.bufSize.toNat
  range : s.bufBase.toNat + s.bufSize.toNat ≤ Config.memSpan
  ordinary : s.BufferOrdinary

theorem State.GoodBuffer.ordinaryAt {s : State} (h : s.GoodBuffer) {i : Nat} (inside : i < s.bufSize.toNat) :
    s.Ordinary (s.bufBase.toNat + i) :=
  ⟨by have := h.range; omega, h.ordinary _ (by omega) (by omega)⟩

/-- M_CHECK lets the buffer through (R151). -/
theorem engineStep_check {s : State} (good : s.GoodBuffer) :
    engineStep (s.accept s.maskLatches .mCheck) = .next (s.during 0 0 .mMark { s.maskLatches with markCount := 0 } s.mem) := by
  rw [engineStep_mCheck rfl, stepMCheck_of_ok good.range good.size]
  rfl

section Marker

variable {s : State} {k : Nat} {e : Engine}

theorem State.Marked.address (h : s.Marked k e) : e.base.toNat + e.markCount.toNat = s.bufBase.toNat + k := by
  rw [h.latched.base, h.count]

/-- One marker byte more. -/
theorem engineStep_marker_more (good : s.GoodBuffer) (marked : s.Marked k e) (more : k < 3) (answer : s.OkAt k) :
    ∃ f, s.Marked (k + 1) f ∧ engineStep (s.during 0 k .mMark e s.mem) = .next (s.during 0 (k + 1) .mMark f s.mem) := by
  have ordinary : s.Ordinary (e.base.toNat + e.markCount.toNat) :=
    marked.address ▸ good.ordinaryAt (by have := good.size; omega)
  have count := marked.count
  refine ⟨{ e with mark := e.mark.setIfInBounds e.markCount.toNat (s.readByte (s.bufBase.toNat + k)),
                   markCount := e.markCount + 1 }, ⟨⟨marked.latched.op, marked.latched.key, marked.latched.nonce,
      marked.latched.base, marked.latched.size⟩, ?_, fun j hj counted => ?_⟩, ?_⟩
  · show (e.markCount + 1).toNat = k + 1
    bv_omega
  · simp only [Vector.getElem_setIfInBounds]
    split_ifs with last
    · rw [← last, count]
    · exact marked.bytes j hj (by omega)
  · rw [engineStep_mMark rfl, State.stepMMark]
    refine (memRead_during_ok ordinary answer).trans ?_
    rw [markRead_of_more _ (by exact count ▸ more), marked.address]
    rfl

/-- After `k` marker bytes, each answered OK, the engine is at the next one. -/
theorem runEngine_to_marker (good : s.GoodBuffer) (k : Nat) (hk : k ≤ 3) (answers : ∀ i < k, s.OkAt i) :
    ∃ e, s.Marked k e ∧ ∀ n, runEngine (1 + k + n) (s.accept s.maskLatches .mCheck) = runEngine n (s.during 0 k .mMark e s.mem) := by
  induction k with
  | zero =>
    refine ⟨{ s.maskLatches with markCount := 0 }, ⟨⟨rfl, rfl, rfl, rfl, rfl⟩, by simp, by simp⟩, fun n => ?_⟩
    rw [runEngine_of_step (engineStep_check good) (by omega)]
    congr 1
    omega
  | succ k ih =>
    obtain ⟨e, marked, run⟩ := ih (by omega) fun i hi => answers i (by omega)
    obtain ⟨f, marked', step⟩ := engineStep_marker_more good marked (by omega) (answers k (by omega))
    refine ⟨f, marked', fun n => ?_⟩
    rw [show 1 + (k + 1) + n = 1 + k + (n + 1) by omega, run, runEngine_of_step step (by omega), Nat.add_sub_cancel]

end Marker

/-- Settles O32: after `k` marker bytes answered OK the BUSERR ends the command, and one step completes it. -/
theorem maskHeaderMarkerBusError : Obligations.MaskHeaderMarkerBusError := by
  intro s k rs busy room size range ordinary hk responses
  have good : s.GoodBuffer := ⟨size, range, ordinary⟩
  have answers : ∀ i < k, s.OkAt i := fun i hi => by simp [State.OkAt, responses, List.getElem?_append, hi]
  have answer : s.responses[k]? = some .busErr := by simp [responses]
  obtain ⟨e, marked, run⟩ := runEngine_to_marker good k (by omega) answers
  have ordinary : s.Ordinary (e.base.toNat + e.markCount.toNat) := marked.address ▸ good.ordinaryAt (by omega)
  have step : engineStep (s.during 0 k .mMark e s.mem) = .next ((s.during 0 (k + 1) .mMark e s.mem).raise .errBus 0 0 0) := by
    rw [engineStep_mMark rfl, State.stepMMark]
    exact memRead_during_busErr ordinary answer
  obtain ⟨n, count⟩ : ∃ n, s.slack.count = 1 + k + (n + 2) := ⟨s.slack.count - (k + 3), by omega⟩
  rw [exec_maskHeader busy, count, run, runEngine_of_step step (by omega),
    runEngine_raise_during _ _ _ _ _ (by omega) _ _ _ _ (marked.latched.noKs _)]
  rfl

/-! The fourth marker byte (R156, R157, R161). -/

/-- What the fourth marker byte leads to, in the words of R168. -/
theorem markRead_fourth {t : State} (b : Byte) (h : t.eng.markCount = 3) :
    ∃ f : Engine, f.op = t.eng.op ∧ f.key = t.eng.key ∧ f.nonce = t.eng.nonce ∧ f.base = t.eng.base ∧ f.size = t.eng.size ∧
      t.markRead b =
        if le32 t.eng.mark[0] t.eng.mark[1] t.eng.mark[2] b ≠ Config.magic then
          State.raise { t with eng := f } .skipFormatMismatch 0 0 0
        else if t.eng.size = 8 then State.raise { t with eng := f } .skipTooSmallNoWindow 0 0 0
        else { t with
          eng := { f with win := BitVec.ofNat 32 (windowLength t.eng.size.toNat), off := 0, ctr := 0 }
          phase := .mKgen } := by
  refine ⟨{ t.eng with mark := t.eng.mark.setIfInBounds t.eng.markCount.toNat b, markCount := t.eng.markCount + 1 },
    rfl, rfl, rfl, rfl, rfl, ?_⟩
  have marker : Engine.marker { t.eng with mark := t.eng.mark.setIfInBounds 3 b, markCount := 4 } =
      le32 t.eng.mark[0] t.eng.mark[1] t.eng.mark[2] b := by
    simp [Engine.marker]
  rw [← marker, State.markRead]
  simp only [h]
  rfl

/-- The engine as the first block of the window finds it (R161, R168). -/
def State.windowStart (s : State) (f : Engine) : Engine :=
  { f with win := BitVec.ofNat 32 (windowLength s.bufSize.toNat), off := 0, ctr := 0 }

/-- After the four marker bytes, each answered OK: a skip, or the window. -/
theorem runEngine_past_marker {s : State} (good : s.GoodBuffer) (answers : ∀ i < 4, s.OkAt i) :
    ∃ f, s.Latched f ∧ ∀ n, runEngine (5 + n) (s.accept s.maskLatches .mCheck) = runEngine n (
      if ¬ s.MarkerAt s.bufBase.toNat then (s.during 0 4 .mMark f s.mem).raise .skipFormatMismatch 0 0 0
      else if s.bufSize = 8 then (s.during 0 4 .mMark f s.mem).raise .skipTooSmallNoWindow 0 0 0
      else s.during 0 4 .mKgen (s.windowStart f) s.mem) := by
  obtain ⟨e, marked, run⟩ := runEngine_to_marker good 3 (by omega) fun i hi => answers i (by omega)
  obtain ⟨latched, count, bytes⟩ := id marked
  have ordinary : s.Ordinary (e.base.toNat + e.markCount.toNat) :=
    marked.address ▸ good.ordinaryAt (by have := good.size; omega)
  obtain ⟨f, op, key, nonce, base, size, read⟩ := markRead_fourth (t := s.during 0 4 .mMark e s.mem)
    (s.readByte (s.bufBase.toNat + 3)) (BitVec.eq_of_toNat_eq count)
  have step : engineStep (s.during 0 3 .mMark e s.mem) =
      .next ((s.during 0 4 .mMark e s.mem).markRead (s.readByte (s.bufBase.toNat + 3))) := by
    rw [engineStep_mMark rfl, State.stepMMark]
    refine (memRead_during_ok ordinary (answers 3 (by omega))).trans ?_
    rw [marked.address]
    rfl
  refine ⟨f, ⟨op.trans latched.op, key.trans latched.key, nonce.trans latched.nonce, base.trans latched.base,
    size.trans latched.size⟩, fun n => ?_⟩
  rw [show 5 + n = 1 + 3 + (n + 1) by omega, run, runEngine_of_step step (by omega), Nat.add_sub_cancel, read]
  simp only [State.during_eng, bytes 0 (by omega) (by omega), bytes 1 (by omega) (by omega), bytes 2 (by omega) (by omega),
    latched.size]
  rfl

theorem State.okAt_of_take {s : State} {n i : Nat} (h : ∀ r ∈ s.responses.take n, r = .ok) (hi : i < n) : s.OkAt i :=
  fun r hr => h r (List.mem_of_getElem? (i := i) (by rwa [List.getElem?_take_of_lt hi]))

/-- Settles O33. -/
theorem maskHeaderSkipsForeignFormat : Obligations.MaskHeaderSkipsForeignFormat := by
  intro s busy room size range ordinary answers foreign
  obtain ⟨f, latched, run⟩ := runEngine_past_marker ⟨size, range, ordinary⟩ fun i hi => State.okAt_of_take answers hi
  obtain ⟨n, count⟩ : ∃ n, s.slack.count = 5 + (n + 1) := ⟨s.slack.count - 6, by omega⟩
  rw [exec_maskHeader busy, count, run, if_pos foreign, runEngine_raise_during _ _ _ _ _ (by omega) _ _ _ _ (latched.noKs _)]
  rfl

/-- Settles O34. -/
theorem maskHeaderSkipsWithoutWindow : Obligations.MaskHeaderSkipsWithoutWindow := by
  intro s busy room size range ordinary answers marker
  obtain ⟨f, latched, run⟩ := runEngine_past_marker ⟨size.ge, range, ordinary⟩ fun i hi => State.okAt_of_take answers hi
  obtain ⟨n, count⟩ : ∃ n, s.slack.count = 5 + (n + 1) := ⟨s.slack.count - 6, by omega⟩
  rw [exec_maskHeader busy, count, run, if_neg (not_not.mpr marker), if_pos (BitVec.eq_of_toNat_eq size),
    runEngine_raise_during _ _ _ _ _ (by omega) _ _ _ _ (latched.noKs _)]
  rfl

end Sys2Proof.Machine

namespace Sys2Proof.Machine

/-! The window (R161 to R166). -/

theorem State.maskedPrefix_of_lt (s : State) {base j a : Nat} (h : base + 8 ≤ a ∧ a < base + 8 + j) :
    s.maskedPrefix base j a = s.readByte a ^^^ windowKeyByte (a - (base + 8)) :=
  if_pos h

theorem State.maskedPrefix_of_not_lt (s : State) {base j a : Nat} (h : a < base + 8 ∨ base + 8 + j ≤ a) :
    s.maskedPrefix base j a = s.readByte a :=
  if_neg (by simp only [Config.hdrOffset]; omega)

/-- `maskedPrefix`, one byte longer (R163, R165). -/
theorem State.maskedPrefix_succ (s : State) (base j a : Nat) :
    s.maskedPrefix base (j + 1) a =
      if a = base + 8 + j then s.readByte a ^^^ windowKeyByte j else s.maskedPrefix base j a := by
  by_cases last : a = base + 8 + j
  · rw [if_pos last, s.maskedPrefix_of_lt (by omega), last, Nat.add_sub_cancel_left]
  · rw [if_neg last]
    by_cases inside : base + 8 ≤ a ∧ a < base + 8 + j
    · rw [s.maskedPrefix_of_lt inside, s.maskedPrefix_of_lt (by omega)]
    · rw [s.maskedPrefix_of_not_lt (by omega), s.maskedPrefix_of_not_lt (by omega)]

@[simp] theorem State.maskedPrefix_zero (s : State) (base a : Nat) : s.maskedPrefix base 0 a = s.readByte a :=
  s.maskedPrefix_of_not_lt (by omega)

/-- Memory holds the first `j` bytes of the window masked, and every other byte as it was in `s`. -/
def State.HoldsPrefix (s : State) (j : Nat) (m : List Host.Cell) : Prop :=
  ∀ a, Memory.read m a = s.maskedPrefix s.bufBase.toNat j a

theorem State.holdsPrefix_zero (s : State) : s.HoldsPrefix 0 s.mem := fun a => (s.maskedPrefix_zero _ a).symm

/-- The masked byte written, the prefix is one byte longer. -/
theorem State.HoldsPrefix.write {s : State} {j : Nat} {m : List Host.Cell} (h : s.HoldsPrefix j m) {v : Byte}
    (masked : v = s.readByte (s.bufBase.toNat + 8 + j) ^^^ windowKeyByte j) :
    s.HoldsPrefix (j + 1) (Memory.write m (s.bufBase.toNat + 8 + j) v) := by
  intro a
  rw [s.maskedPrefix_succ]
  split_ifs with here
  · rw [here, Memory.read_write_self, masked]
  · rw [Memory.read_write_of_ne _ _ here, h a]

/-- The byte that comes next is as it was. -/
theorem State.HoldsPrefix.next {s : State} {j : Nat} {m : List Host.Cell} (h : s.HoldsPrefix j m) :
    Memory.read m (s.bufBase.toNat + 8 + j) = s.readByte (s.bufBase.toNat + 8 + j) := by
  rw [h, s.maskedPrefix_of_not_lt (by omega)]

/-- The length of the window of a MASK_HEADER accepted in `s` (R161). -/
def State.windowSize (s : State) : Nat := min 0x200 (s.bufSize.toNat - 8)

theorem State.windowSize_eq (s : State) : s.windowSize = windowLength s.bufSize.toNat := rfl

/-- The engine at window byte `j`: the window, the offset and the block counter of that byte (R161, R162). -/
structure State.AtByte (s : State) (j : Nat) (e : Engine) : Prop where
  latched : s.Latched e
  win : e.win = BitVec.ofNat 32 s.windowSize
  off : e.off = BitVec.ofNat 32 j
  ctr : e.ctr = BitVec.ofNat 32 (j / 64)

/-- The engine's keystream buffer holds the block of window byte `j` (R163). -/
def Engine.HasBlock (e : Engine) (j : Nat) : Prop :=
  e.kbuf = keystream Config.fixedKey (BitVec.ofNat 32 (j / 64)) Config.fixedNonce

section Window

variable {s : State} {j b k : Nat} {e : Engine} {m : List Host.Cell}

theorem State.AtByte.off_toNat (h : s.AtByte j e) (inside : j < s.windowSize) : e.off.toNat = j := by
  have cap : s.windowSize ≤ 0x200 := min_le_left ..
  rw [h.off, BitVec.toNat_ofNat, Nat.mod_eq_of_lt (by omega)]

theorem State.AtByte.windowAddr (h : s.AtByte j e) (inside : j < s.windowSize) :
    e.windowAddr = s.bufBase.toNat + 8 + j := by
  rw [Engine.windowAddr, h.off_toNat inside, h.latched.base, Config.hdrOffset]

theorem State.GoodBuffer.ordinary_window (good : s.GoodBuffer) (inside : j < s.windowSize) :
    s.Ordinary (s.bufBase.toNat + 8 + j) := by
  have size : s.windowSize ≤ s.bufSize.toNat - 8 := min_le_right ..
  rw [Nat.add_assoc]
  exact good.ordinaryAt (by omega)

/-- The masked value of window byte `j` (R163). -/
theorem maskedByte_eq (at_j : s.AtByte j e) (inside : j < s.windowSize) (block : e.HasBlock j) :
    e.maskedByte = e.rbyte ^^^ windowKeyByte j := by
  rw [Engine.HasBlock] at block
  simp only [Engine.maskedByte, windowKeyByte, block, at_j.off_toNat inside]

/-- M_KGEN: the block of the counter (R163). -/
theorem engineStep_kgen (at_j : s.AtByte j e) :
    ∃ f, s.AtByte j f ∧ f.HasBlock j ∧ engineStep (s.during b k .mKgen e m) = .next (s.during (b + 1) k .mRd f m) := by
  refine ⟨{ e with kbuf := keystream e.key e.ctr e.nonce }, ⟨?_, at_j.win, at_j.off, at_j.ctr⟩, ?_, ?_⟩
  · obtain ⟨⟩ := at_j.latched
    constructor <;> assumption
  · show keystream e.key e.ctr e.nonce = _
    rw [at_j.latched.key, at_j.latched.nonce, at_j.ctr]
  · rw [engineStep_mKgen rfl, stepMKgen_eq]
    simp [State.during, State.worked, State.accept, Nat.add_assoc]

/-- M_RD, answered OK (R164). -/
theorem engineStep_rd (good : s.GoodBuffer) (at_j : s.AtByte j e) (inside : j < s.windowSize) (answer : s.OkAt k) :
    engineStep (s.during b k .mRd e m) =
      .next (s.during b (k + 1) .mWr { e with rbyte := Memory.read m (s.bufBase.toNat + 8 + j) } m) := by
  have ordinary := good.ordinary_window inside
  rw [← at_j.windowAddr inside] at ordinary ⊢
  rw [engineStep_mRd rfl, State.stepMRd]
  exact memRead_during_ok ordinary answer

/-- M_WR, answered OK (R163, R165). -/
theorem engineStep_wr (good : s.GoodBuffer) (at_j : s.AtByte j e) (inside : j < s.windowSize) (answer : s.OkAt k) :
    engineStep (s.during b k .mWr e m) =
      .next (s.during b (k + 1) .mWr e (Memory.write m (s.bufBase.toNat + 8 + j) e.maskedByte)).byteDone := by
  have ordinary := good.ordinary_window inside
  rw [← at_j.windowAddr inside] at ordinary ⊢
  rw [engineStep_mWr rfl, State.stepMWr]
  exact memWrite_during_ok ordinary answer

/-- A window byte read and written, each answered OK: the prefix is one byte longer. -/
theorem runEngine_byte (good : s.GoodBuffer) (at_j : s.AtByte j e) (block : e.HasBlock j) (inside : j < s.windowSize)
    (holds : s.HoldsPrefix j m) (rd : s.OkAt k) (wr : s.OkAt (k + 1)) :
    ∃ f m', s.AtByte j f ∧ f.HasBlock j ∧ s.HoldsPrefix (j + 1) m' ∧
      ∀ n, runEngine (n + 2) (s.during b k .mRd e m) = runEngine n (s.during b (k + 2) .mWr f m').byteDone := by
  let f : Engine := { e with rbyte := Memory.read m (s.bufBase.toNat + 8 + j) }
  have at_j' : s.AtByte j f := by
    obtain ⟨⟨⟩, _, _, _⟩ := at_j
    constructor
    · constructor <;> assumption
    all_goals assumption
  refine ⟨f, _, at_j', block, holds.write (v := f.maskedByte) ?_, fun n => ?_⟩
  · rw [maskedByte_eq at_j' inside block, ← holds.next]
  · rw [runEngine_of_step (engineStep_rd good at_j inside rd) (by omega),
      runEngine_of_step (engineStep_wr good at_j' inside wr) (by omega)]
    rfl

end Window

end Sys2Proof.Machine

namespace Sys2Proof.Machine

section Window

variable {s : State} {j b k : Nat} {e : Engine} {m : List Host.Cell}

theorem State.AtByte.nextOff (h : s.AtByte j e) : e.off + 1 = BitVec.ofNat 32 (j + 1) := by
  rw [h.off, BitVec.ofNat_add]
  rfl

theorem State.AtByte.nextCtr (h : s.AtByte j e) : e.ctr + 1 = BitVec.ofNat 32 (j / 64 + 1) := by
  rw [h.ctr, BitVec.ofNat_add]
  rfl

theorem State.AtByte.nextOff_eq_win (h : s.AtByte j e) (inside : j < s.windowSize) :
    e.off + 1 = e.win ↔ j + 1 = s.windowSize := by
  have cap : s.windowSize ≤ 0x200 := min_le_left ..
  rw [h.nextOff, h.win, ← BitVec.toNat_inj, BitVec.toNat_ofNat, BitVec.toNat_ofNat, Nat.mod_eq_of_lt (by omega),
    Nat.mod_eq_of_lt (by omega)]

theorem State.AtByte.nextOff_mod (h : s.AtByte j e) (inside : j < s.windowSize) :
    (e.off + 1).toNat % Config.blockBytes = (j + 1) % 64 := by
  have cap : s.windowSize ≤ 0x200 := min_le_left ..
  have small : j + 1 < 2 ^ 32 := by omega
  rw [h.nextOff, BitVec.toNat_ofNat, Nat.mod_eq_of_lt small]

theorem blocksFor_last (j : Nat) : blocksFor (j + 1) = j / 64 + 1 := by
  simp only [blocksFor, Config.blockBytes]
  omega

/-- The last window byte written: the command ends with OK (R165, R166). -/
theorem byteDone_last {u : State} (at_j : s.AtByte j u.eng) (last : j + 1 = s.windowSize) :
    ∃ f, s.Latched f ∧ u.byteDone =
      State.raise { u with eng := f } .ok (BitVec.ofNat 32 s.windowSize) (BitVec.ofNat 32 s.windowSize)
        (BitVec.ofNat 32 (blocksFor s.windowSize)) := by
  obtain ⟨op, key, nonce, base, size⟩ := at_j.latched
  refine ⟨{ u.eng with off := u.eng.off + 1 }, ⟨op, key, nonce, base, size⟩, ?_⟩
  have ends : u.eng.off + 1 = u.eng.win := (at_j.nextOff_eq_win (by omega)).mpr last
  have blocks : u.eng.ctr + 1 = BitVec.ofNat 32 (blocksFor s.windowSize) := by rw [at_j.nextCtr, ← last, blocksFor_last]
  rw [← blocks, ← at_j.win]
  exact byteDone_of_last ends

/-- A window byte written and the block of keystream used up: on to the next block (R162). -/
theorem byteDone_block {u : State} (at_j : s.AtByte j u.eng) (more : j + 1 < s.windowSize) (boundary : (j + 1) % 64 = 0) :
    ∃ f, s.AtByte (j + 1) f ∧ u.byteDone = { u with eng := f, phase := .mKgen } := by
  obtain ⟨op, key, nonce, base, size⟩ := at_j.latched
  have nextCtr : u.eng.ctr + 1 = BitVec.ofNat 32 ((j + 1) / 64) := by
    rw [at_j.nextCtr]
    congr 1
    omega
  have goesOn : u.eng.off + 1 ≠ u.eng.win := mt (at_j.nextOff_eq_win (by omega)).mp (by omega)
  exact ⟨{ u.eng with off := u.eng.off + 1, ctr := u.eng.ctr + 1 },
    ⟨⟨op, key, nonce, base, size⟩, at_j.win, at_j.nextOff, nextCtr⟩,
    byteDone_of_block goesOn ((at_j.nextOff_mod (by omega)).trans boundary)⟩

/-- A window byte written inside a block: on to the next byte (R168). -/
theorem byteDone_more {u : State} (at_j : s.AtByte j u.eng) (block : u.eng.HasBlock j) (more : j + 1 < s.windowSize)
    (inner : (j + 1) % 64 ≠ 0) :
    ∃ f, s.AtByte (j + 1) f ∧ f.HasBlock (j + 1) ∧ u.byteDone = { u with eng := f, phase := .mRd } := by
  obtain ⟨op, key, nonce, base, size⟩ := at_j.latched
  have same : j / 64 = (j + 1) / 64 := by omega
  have goesOn : u.eng.off + 1 ≠ u.eng.win := mt (at_j.nextOff_eq_win (by omega)).mp (by omega)
  exact ⟨{ u.eng with off := u.eng.off + 1 }, ⟨⟨op, key, nonce, base, size⟩, at_j.win, at_j.nextOff, same ▸ at_j.ctr⟩, by
    rw [Engine.HasBlock, ← same]; exact block,
    byteDone_of_more goesOn ((at_j.nextOff_mod (by omega)).trans_ne inner)⟩

/-- A MASK_HEADER whose buffer has a window and the marker (R156, R157). -/
structure State.HasWindow (s : State) : Prop extends s.GoodBuffer where
  large : 8 < s.bufSize.toNat
  marker : s.MarkerAt s.bufBase.toNat

/-- Two engine steps a window byte, and one a block that starts with it: with every answer OK the engine comes to window byte `j`. -/
theorem runEngine_to_byte (window : s.HasWindow) (j : Nat) (inside : j < s.windowSize) (answers : ∀ i < 4 + 2 * j, s.OkAt i) :
    ∃ e m, s.AtByte j e ∧ e.HasBlock j ∧ s.HoldsPrefix j m ∧
      ∀ n, runEngine (5 + (j / 64 + 1) + 2 * j + n) (s.accept s.maskLatches .mCheck) =
        runEngine n (s.during (j / 64 + 1) (4 + 2 * j) .mRd e m) := by
  induction j with
  | zero =>
    obtain ⟨f, ⟨op, key, nonce, base, size⟩, run⟩ := runEngine_past_marker window.toGoodBuffer answers
    have start : s.AtByte 0 (s.windowStart f) := ⟨⟨op, key, nonce, base, size⟩, rfl, rfl, rfl⟩
    obtain ⟨e, at_0, block, step⟩ := engineStep_kgen (b := 0) (k := 4) (m := s.mem) start
    refine ⟨e, s.mem, at_0, block, s.holdsPrefix_zero, fun n => ?_⟩
    have notEight : s.bufSize ≠ 8 := fun eight => by have := window.large; simp [eight] at this
    rw [show 5 + (0 / 64 + 1) + 2 * 0 + n = 5 + (n + 1) by omega, run, if_neg (not_not.mpr window.marker), if_neg notEight,
      runEngine_of_step step (by omega), Nat.add_sub_cancel]
  | succ j ih =>
    obtain ⟨e, m, at_j, block, holds, run⟩ := ih (by omega) fun i hi => answers i (by omega)
    obtain ⟨f, m', at_j', block', holds', byte⟩ := runEngine_byte (b := j / 64 + 1) window.toGoodBuffer at_j block (by omega) holds
      (answers (4 + 2 * j) (by omega)) (answers (4 + 2 * j + 1) (by omega))
    by_cases boundary : (j + 1) % 64 = 0
    · obtain ⟨g, at_next, done⟩ := byteDone_block (u := s.during (j / 64 + 1) (4 + 2 * j + 2) .mWr f m') at_j' inside boundary
      have done : _ = s.during (j / 64 + 1) (4 + 2 * j + 2) .mKgen g m' := done
      obtain ⟨h, at_h, blockh, step⟩ := engineStep_kgen (b := j / 64 + 1) (k := 4 + 2 * j + 2) (m := m') at_next
      refine ⟨h, m', at_h, blockh, holds', fun n => ?_⟩
      have blocks : (j + 1) / 64 = j / 64 + 1 := by omega
      rw [show 5 + ((j + 1) / 64 + 1) + 2 * (j + 1) + n = 5 + (j / 64 + 1) + 2 * j + (n + 1 + 2) by omega, run, byte, done,
        runEngine_of_step step (by omega), Nat.add_sub_cancel, blocks]
      rfl
    · obtain ⟨g, at_next, blockg, done⟩ := byteDone_more (u := s.during (j / 64 + 1) (4 + 2 * j + 2) .mWr f m') at_j' block'
        inside boundary
      refine ⟨g, m', at_next, blockg, holds', fun n => ?_⟩
      have blocks : (j + 1) / 64 = j / 64 := by omega
      rw [show 5 + ((j + 1) / 64 + 1) + 2 * (j + 1) + n = 5 + (j / 64 + 1) + 2 * j + (n + 2) by omega, run, byte, done, blocks]
      rfl

end Window

/-- The run comes to the last window byte (`runEngine_to_byte`), masks it, and completes with OK. -/
theorem exec_masks_window {s : State} (busy : s.status.busy = false) (window : s.HasWindow)
    (room : okSteps s.windowSize ≤ s.slack.count) (answers : ∀ i < 4 + 2 * s.windowSize, s.OkAt i) :
    ∃ m, exec .maskHeader s = .next
        { (s.worked (blocksFor s.windowSize) (4 + 2 * s.windowSize)).completedBy .ok (BitVec.ofNat 32 s.windowSize)
            (BitVec.ofNat 32 s.windowSize) (BitVec.ofNat 32 (blocksFor s.windowSize)) with mem := m } ∧
      s.HoldsPrefix s.windowSize m := by
  have some : 0 < s.windowSize := lt_min (by decide) (Nat.sub_pos_of_lt window.large)
  obtain ⟨j, last⟩ : ∃ j, j + 1 = s.windowSize := ⟨s.windowSize - 1, by omega⟩
  obtain ⟨e, m, at_j, block, holds, run⟩ := runEngine_to_byte window j (by omega) fun i hi => answers i (by omega)
  obtain ⟨f, m', at_j', -, holds', byte⟩ := runEngine_byte (b := j / 64 + 1) window.toGoodBuffer at_j block (by omega) holds
    (answers (4 + 2 * j) (by omega)) (answers (4 + 2 * j + 1) (by omega))
  obtain ⟨g, latched, done⟩ := byteDone_last (u := s.during (j / 64 + 1) (4 + 2 * j + 2) .mWr f m') at_j' last
  have done : _ = (s.during (j / 64 + 1) (4 + 2 * j + 2) .mWr g m').raise .ok _ _ _ := done
  refine ⟨m', ?_, last ▸ holds'⟩
  have blocks : blocksFor s.windowSize = j / 64 + 1 := last ▸ blocksFor_last j
  obtain ⟨r, count⟩ : ∃ r, s.slack.count = 5 + (j / 64 + 1) + 2 * j + (r + 1 + 2) :=
    ⟨s.slack.count - (5 + (j / 64 + 1) + 2 * j + 3), by simp only [okSteps, blocks] at room; omega⟩
  rw [exec_maskHeader busy, count, run, byte, done, runEngine_raise_during _ _ _ _ _ (by omega) _ _ _ _ (latched.noKs _),
    ← blocks, show 4 + 2 * s.windowSize = 4 + 2 * j + 2 by omega]

/-- Settles O35. -/
theorem maskHeaderMasksTheWindow : Obligations.MaskHeaderMasksTheWindow := fun _ busy large range ordinary marker room answers =>
  exec_masks_window busy ⟨⟨large.le, range, ordinary⟩, large, marker⟩ room fun _ hi => State.okAt_of_take answers hi

/-! A BUSERR on a window byte (R167). -/

theorem okAt_of_replicate {s : State} {n i : Nat} {rs : List Response} (h : s.responses = List.replicate n .ok ++ .busErr :: rs)
    (hi : i < n) : s.OkAt i := by
  simp [State.OkAt, h, List.getElem?_append, hi]

theorem busErr_of_replicate {s : State} {n : Nat} {rs : List Response} (h : s.responses = List.replicate n .ok ++ .busErr :: rs) :
    s.responses[n]? = some .busErr := by
  simp [h]

theorem drop_of_replicate {s : State} {n : Nat} {rs : List Response} (h : s.responses = List.replicate n .ok ++ .busErr :: rs) :
    s.responses.drop (n + 1) = rs := by
  simp [h, List.drop_append]

theorem windowError_eq {s u : State} {j : Nat} (h : s.AtByte j u.eng) :
    u.windowError =
      u.raise .errBus (BitVec.ofNat 32 s.windowSize) (BitVec.ofNat 32 j) (BitVec.ofNat 32 (j / 64 + 1)) := by
  rw [State.windowError, h.win, h.off, h.nextCtr]

/-- The slack leaves room for the steps up to window byte `k`, the error and FINISH. -/
theorem slack_of_okSteps {c k n : Nat} (inside : k < n) (room : okSteps n ≤ c) :
    ∃ r, c = 5 + (k / 64 + 1) + 2 * k + (r + 3) := by
  simp only [okSteps, blocksFor, Config.blockBytes] at room
  exact ⟨c - (5 + (k / 64 + 1) + 2 * k + 3), by omega⟩

/-- Settles O36: the run comes to window byte `k` (`runEngine_to_byte`), and the BUSERR on its read ends the command. -/
theorem maskHeaderWindowReadBusError : Obligations.MaskHeaderWindowReadBusError := by
  intro s k rs busy large range ordinary marker n inside room responses
  have window : s.HasWindow := ⟨⟨large.le, range, ordinary⟩, large, marker⟩
  obtain ⟨e, m, at_k, -, holds, run⟩ := runEngine_to_byte window k inside fun i hi => okAt_of_replicate responses hi
  have step : engineStep (s.during (k / 64 + 1) (4 + 2 * k) .mRd e m) =
      .next (s.during (k / 64 + 1) (4 + 2 * k + 1) .mRd e m).windowError := by
    rw [engineStep_mRd rfl, State.stepMRd]
    exact memRead_during_busErr (at_k.windowAddr inside ▸ window.ordinary_window inside) (busErr_of_replicate responses)
  obtain ⟨r, count⟩ := slack_of_okSteps inside room
  refine ⟨m, ?_, holds⟩
  rw [exec_maskHeader busy, count, run, runEngine_of_step step (by omega), windowError_eq at_k,
    runEngine_raise_during _ _ _ _ _ (by omega) _ _ _ _ (at_k.latched.noKs _)]
  rfl

/-- Settles O37: the run comes to window byte `k`, reads it, and the BUSERR on its write ends the command; the byte that the
failed write leaves is none of the others. -/
theorem maskHeaderWindowWriteBusError : Obligations.MaskHeaderWindowWriteBusError := by
  intro s k rs busy large range ordinary marker n inside room responses
  have window : s.HasWindow := ⟨⟨large.le, range, ordinary⟩, large, marker⟩
  obtain ⟨e, m, at_k, -, holds, run⟩ := runEngine_to_byte window k inside fun i hi =>
    okAt_of_replicate responses (Nat.lt_succ_of_lt hi)
  have read := engineStep_rd (b := k / 64 + 1) (m := m) window.toGoodBuffer at_k inside
    (okAt_of_replicate responses (Nat.lt_succ_self _))
  let f : Engine := { e with rbyte := Memory.read m (s.bufBase.toNat + 8 + k) }
  have at_k' : s.AtByte k f := ⟨⟨at_k.latched.op, at_k.latched.key, at_k.latched.nonce, at_k.latched.base, at_k.latched.size⟩,
    at_k.win, at_k.off, at_k.ctr⟩
  let u : State := (s.during (k / 64 + 1) (4 + 2 * k + 2) .mWr f m).storeFailed (s.bufBase.toNat + 8 + k)
  have step : engineStep (s.during (k / 64 + 1) (4 + 2 * k + 1) .mWr f m) = .next u.windowError := by
    rw [engineStep_mWr rfl, State.stepMWr]
    refine (memWrite_during_busErr (at_k'.windowAddr inside ▸ window.ordinary_window inside) (busErr_of_replicate responses)).trans ?_
    rw [State.during_eng, at_k'.windowAddr inside]
  obtain ⟨r, count⟩ := slack_of_okSteps inside room
  refine ⟨(u.raise .errBus (BitVec.ofNat 32 s.windowSize) (BitVec.ofNat 32 k) (BitVec.ofNat 32 (k / 64 + 1))).finish, ?_, rfl, rfl,
    rfl, rfl, drop_of_replicate responses, rfl, if_neg (by simp [u, at_k'.latched.noKs]), fun a other => ?_⟩
  · rw [exec_maskHeader busy, count, run, runEngine_of_step read (by omega), runEngine_of_step step (by omega),
      windowError_eq at_k', runEngine_finish rfl (by omega)]
  · exact (Memory.read_write_of_ne _ _ other).trans (holds a)

end Sys2Proof.Machine

namespace Sys2Proof.Machine

/-! The outcome of a MASK_HEADER that meets no bus error (R172). -/

/-- A row of R172's table: the size of the buffer and its marker, the outcome, and the number of bytes masked. -/
def State.OutcomeRow (s : State) (c : OutcomeCode) (n : Nat) : Prop :=
  (s.bufSize.toNat = 0 ∧ c = .skipEmpty ∧ n = 0) ∨
  (1 ≤ s.bufSize.toNat ∧ s.bufSize.toNat ≤ 7 ∧ c = .skipTooSmallHeader ∧ n = 0) ∨
  (8 ≤ s.bufSize.toNat ∧ ¬ s.MarkerAt s.bufBase.toNat ∧ c = .skipFormatMismatch ∧ n = 0) ∨
  (s.bufSize.toNat = 8 ∧ s.MarkerAt s.bufBase.toNat ∧ c = .skipTooSmallNoWindow ∧ n = 0) ∨
  (8 < s.bufSize.toNat ∧ s.MarkerAt s.bufBase.toNat ∧ c = .ok ∧ n = s.windowSize)

/-- A MASK_HEADER that has completed with `c`, its first `n` window bytes masked. -/
structure State.MaskedBy (s : State) (c : OutcomeCode) (n : Nat) (t : State) : Prop where
  exec_eq : exec .maskHeader s = .next t
  status : t.status = { busy := false, done := true, diag := c.diag, cmdDropped := s.status.cmdDropped, outcome := c }
  bytesDone : t.bytesDone.toNat = n
  holds : s.HoldsPrefix n t.mem

theorem maskedBy_of_exec {s : State} {b k : Nat} {c : OutcomeCode} {w d l : Word} {m : List Host.Cell} {n : Nat}
    (run : exec .maskHeader s = .next { (s.worked b k).completedBy c w d l with mem := m }) (done : d.toNat = n)
    (holds : s.HoldsPrefix n m) : ∃ t, s.MaskedBy c n t :=
  ⟨_, run, rfl, done, holds⟩

theorem okSteps_le (s : State) : okSteps s.windowSize ≤ 1038 := by
  have cap : s.windowSize ≤ 0x200 := min_le_left ..
  simp only [okSteps, blocksFor, Config.blockBytes]
  omega

theorem State.AllOk.okAt {s : State} (h : s.AllOk) (i : Nat) : s.OkAt i := fun r hr => h r (List.mem_of_getElem? hr)

/-- With no bus error, a MASK_HEADER left alone completes by the row of its buffer. -/
theorem exec_maskHeader_row {s : State} (busy : s.status.busy = false) (slack : s.slack = .untilIdle) (answers : s.AllOk)
    (ordinary : s.BufferOrdinary) (range : s.bufBase.toNat + s.bufSize.toNat ≤ 2 ^ 64) :
    ∃ c n t, s.OutcomeRow c n ∧ s.MaskedBy c n t := by
  have count : s.slack.count = 1038 := by rw [slack]; rfl
  have four : ∀ r ∈ s.responses.take 4, r = .ok := fun r hr => answers r (List.mem_of_mem_take hr)
  have skipped {c : OutcomeCode} (k : Nat) (row : s.OutcomeRow c 0)
      (run : exec .maskHeader s = .next ((s.worked 0 k).completedBy c 0 0 0)) : ∃ c n t, s.OutcomeRow c n ∧ s.MaskedBy c n t := by
    obtain ⟨t, masked⟩ := maskedBy_of_exec (m := s.mem) run rfl s.holdsPrefix_zero
    exact ⟨c, 0, t, row, masked⟩
  by_cases empty : s.bufSize.toNat = 0
  · exact skipped 0 (.inl ⟨empty, rfl, rfl⟩) (maskHeaderSkipsEmpty s busy (by omega) empty)
  by_cases small : s.bufSize.toNat ≤ 7
  · exact skipped 0 (.inr (.inl ⟨by omega, small, rfl, rfl⟩))
      (maskHeaderSkipsTooSmallForTheHeader s busy (by omega) (by omega) small range)
  by_cases marker : s.MarkerAt s.bufBase.toNat
  swap
  · exact skipped 4 (.inr (.inr (.inl ⟨by omega, marker, rfl, rfl⟩)))
      (maskHeaderSkipsForeignFormat s busy (by omega) (by omega) range ordinary four marker)
  by_cases eight : s.bufSize.toNat = 8
  · exact skipped 4 (.inr (.inr (.inr (.inl ⟨eight, marker, rfl, rfl⟩))))
      (maskHeaderSkipsWithoutWindow s busy (by omega) eight range ordinary four marker)
  · have large : 8 < s.bufSize.toNat := by omega
    obtain ⟨m, run, holds⟩ := exec_masks_window busy ⟨⟨large.le, range, ordinary⟩, large, marker⟩ (count ▸ okSteps_le s)
      fun i _ => answers.okAt i
    obtain ⟨t, masked⟩ := maskedBy_of_exec run (toNat_ofNat_windowLength _) holds
    exact ⟨.ok, _, t, .inr (.inr (.inr (.inr ⟨large, marker, rfl, rfl⟩))), masked⟩

/-- Settles O40: the rows of `exec_maskHeader_row` exclude each other. -/
theorem outcomeBySizeAndMarker : Obligations.OutcomeBySizeAndMarker := by
  intro s busy slack answers ordinary range
  obtain ⟨c, n, t, row, run, status, bytesDone, holds⟩ := exec_maskHeader_row busy slack answers ordinary range
  refine ⟨t, c, c.diag, n, run, status, bytesDone, holds, ?_⟩
  have window : s.windowSize = min 0x200 (s.bufSize.toNat - 8) := rfl
  rcases row with ⟨size, rfl, rfl⟩ | ⟨size, small, rfl, rfl⟩ | ⟨size, marker, rfl, rfl⟩ | ⟨size, marker, rfl, rfl⟩ |
    ⟨size, marker, rfl, rfl⟩
  · exact ⟨fun _ => ⟨rfl, rfl, rfl⟩, by omega, by omega, by omega, by omega, by omega⟩
  · exact ⟨by omega, fun _ _ => ⟨rfl, rfl, rfl⟩, by omega, by omega, by omega, by omega⟩
  · exact ⟨by omega, by omega, fun _ _ => ⟨rfl, rfl, rfl⟩, fun _ found => absurd found marker,
      fun _ _ found => absurd found marker, fun _ found => absurd found marker⟩
  · exact ⟨by omega, by omega, fun _ foreign => absurd marker foreign, fun _ _ => ⟨rfl, rfl, rfl⟩, by omega, by omega⟩
  · exact ⟨by omega, by omega, fun _ foreign => absurd marker foreign, by omega, fun _ _ _ => ⟨rfl, rfl, by omega⟩,
      fun _ _ => ⟨rfl, rfl, by omega⟩⟩

/-! MASK_HEADER twice (R170). -/

/-- XOR with the keystream twice is no change. -/
theorem maskedPrefix_maskedPrefix {s t : State} {base n : Nat} (h : ∀ a, t.readByte a = s.maskedPrefix base n a) (a : Nat) :
    t.maskedPrefix base n a = s.readByte a := by
  by_cases inside : base + 8 ≤ a ∧ a < base + 8 + n
  · rw [t.maskedPrefix_of_lt inside, h, s.maskedPrefix_of_lt inside, BitVec.xor_assoc, BitVec.xor_self, BitVec.xor_zero]
  · rw [t.maskedPrefix_of_not_lt (by omega), h, s.maskedPrefix_of_not_lt (by omega)]

/-- What a MASK_HEADER leaves for the next one: its operands, the platform, and answers that are still to come. -/
theorem exec_maskHeader_keeps {s t : State} (busy : s.status.busy = false) (next : exec .maskHeader s = .next t) :
    t.bufBase = s.bufBase ∧ t.bufSize = s.bufSize ∧ t.devices = s.devices ∧ t.slack = s.slack ∧ t.responses <:+ s.responses := by
  rw [exec_maskHeader busy] at next
  have keeps := runEngine_keepsHost next
  exact ⟨by rw [State.bufBase, keeps.bufBaseLo, keeps.bufBaseHi]; rfl, by rw [State.bufSize, keeps.bufSizeLo, keeps.bufSizeHi]; rfl,
    keeps.devices, keeps.slack, 
    runEngine_responses_suffix (s := s.accept s.maskLatches .mCheck) next⟩

/-- A MASK_HEADER that ends with OK had a buffer inside the address space (R158). -/
theorem range_of_ok {s t : State} (busy : s.status.busy = false) (slack : s.slack = .untilIdle)
    (next : exec .maskHeader s = .next t) (ok : t.status.outcome = .ok) : s.bufBase.toNat + s.bufSize.toNat ≤ 2 ^ 64 := by
  by_contra past
  have room : 2 ≤ s.slack.count := by rw [slack]; decide
  have := maskHeaderChecksTheAddressRange s busy room (by omega) (not_le.mp past)
  rw [this] at next
  cases next
  cases ok

/-- A buffer whose window has been masked still has its marker, which lies below the window (R170). -/
theorem hasWindow_of_masked {s t : State} {n : Nat} (window : s.HasWindow) (holds : s.HoldsPrefix n t.mem)
    (base : t.bufBase = s.bufBase) (size : t.bufSize = s.bufSize) (devices : t.devices = s.devices) : t.HasWindow := by
  obtain ⟨⟨least, range, ordinary⟩, large, marker⟩ := window
  have byte (i : Nat) (h : i < 8) : t.readByte (s.bufBase.toNat + i) = s.readByte (s.bufBase.toNat + i) :=
    (holds _).trans (s.maskedPrefix_of_not_lt (by omega))
  have ordinary' : t.BufferOrdinary := by
    intro a low high
    rw [base] at low high
    rw [size] at high
    rw [isDevice_congr devices]
    exact ordinary a low high
  have marker' : t.MarkerAt s.bufBase.toNat := by
    rw [State.MarkerAt, byte 1 (by omega), byte 2 (by omega), byte 3 (by omega)]
    have head : t.readByte s.bufBase.toNat = s.readByte s.bufBase.toNat := byte 0 (by omega)
    rw [head]
    exact marker
  exact ⟨⟨by rwa [size], by rwa [base, size], ordinary'⟩, by rwa [size], by rwa [base]⟩

/-- Settles O43: the first run masked its window, so the second finds the same buffer with the same marker, and masks it again. -/
theorem maskHeaderIsItsOwnInverse : Obligations.MaskHeaderIsItsOwnInverse := by
  intro s t busy slack answers ordinary next ok
  have range := range_of_ok busy slack next ok
  obtain ⟨c, n, u, row, run, status, -, holds⟩ := exec_maskHeader_row busy slack answers ordinary range
  obtain rfl : t = u := by rw [next] at run; cases run; rfl
  obtain rfl : c = .ok := by rw [status] at ok; exact ok
  obtain ⟨large, marker, rfl⟩ : 8 < s.bufSize.toNat ∧ s.MarkerAt s.bufBase.toNat ∧ n = s.windowSize := by
    simpa [State.OutcomeRow] using row
  obtain ⟨base, size, devices, slack', suffix⟩ := exec_maskHeader_keeps busy next
  have window : t.HasWindow := hasWindow_of_masked ⟨⟨large.le, range, ordinary⟩, large, marker⟩ holds base size devices
  have allOk : t.AllOk := fun r hr => answers r (suffix.subset hr)
  have count : t.slack.count = 1038 := by rw [slack', slack]; rfl
  obtain ⟨m, again, holds'⟩ := exec_masks_window (by rw [status]) window (count ▸ okSteps_le t) fun i _ => allOk.okAt i
  refine ⟨_, again, rfl, fun a => (holds' a).trans ?_⟩
  have windowSize : t.windowSize = s.windowSize := by rw [State.windowSize, size, State.windowSize]
  rw [base, windowSize]
  exact maskedPrefix_maskedPrefix holds a

end Sys2Proof.Machine

namespace Sys2Proof.Machine

/-! A MASK_HEADER stopped by a reset (R242): what its engine steps have done so far, whatever the memory answered. -/

/-- Memory as a reset may find it once the command has ended: a masked prefix, but for the byte whose write was answered BUSERR
(R167; log 32). -/
def State.Stopped (s : State) (m : List Host.Cell) : Prop :=
  ∃ k, k ≤ s.windowSize ∧ ∀ a, Memory.read m a = s.maskedPrefix s.bufBase.toNat k a ∨
    (a = s.bufBase.toNat + 8 + k ∧ k < s.windowSize ∧ s.responses[4 + 2 * k + 1]? = some .busErr)

theorem State.HoldsPrefix.stopped {s : State} {k : Nat} {m : List Host.Cell} (h : s.HoldsPrefix k m) (hk : k ≤ s.windowSize) :
    s.Stopped m :=
  ⟨k, hk, fun a => .inl (h a)⟩

theorem State.stopped_of_mem_eq {s : State} {m : List Host.Cell} (h : m = s.mem) : s.Stopped m :=
  h ▸ s.holdsPrefix_zero.stopped (Nat.zero_le _)

/-- The engine at window byte `j`, `k` answers used, memory masked so far (R161 to R165). -/
structure State.InWindowAt (s u : State) (j k : Nat) : Prop where
  inside : j < s.windowSize
  at_j : s.AtByte j u.eng
  holds : s.HoldsPrefix j u.mem
  responses : u.responses = s.responses.drop k

/-- How a MASK_HEADER accepted in `s` stands in `u`, by phase. -/
def State.MaskTrace (s u : State) : Prop :=
  match u.phase with
  | .gRun => False
  | .mCheck => s.Latched u.eng ∧ u.mem = s.mem ∧ u.responses = s.responses
  | .mMark => s.Latched u.eng ∧ u.mem = s.mem ∧ 8 ≤ s.bufSize.toNat ∧ u.eng.markCount.toNat < 4 ∧
      u.responses = s.responses.drop u.eng.markCount.toNat
  | .mKgen => ∃ j, s.InWindowAt u j (4 + 2 * j)
  | .mRd => ∃ j, s.InWindowAt u j (4 + 2 * j) ∧ u.eng.HasBlock j
  | .mWr => ∃ j, s.InWindowAt u j (4 + 2 * j + 1) ∧ u.eng.HasBlock j ∧ u.eng.rbyte = s.readByte (s.bufBase.toNat + 8 + j)
  | .finish | .idle => s.Stopped u.mem

theorem maskTrace_of_finish {s u : State} (phase : u.phase = .finish) (h : s.Stopped u.mem) : s.MaskTrace u := by
  simpa only [State.MaskTrace, phase] using h

theorem maskTrace_stepMCheck {s u : State} (latched : s.Latched u.eng) (mem : u.mem = s.mem)
    (responses : u.responses = s.responses) : s.MaskTrace u.stepMCheck := by
  have stopped : s.Stopped u.mem := State.stopped_of_mem_eq mem
  have latched' : s.Latched { u.eng with markCount := 0 } := by
    obtain ⟨⟩ := latched
    constructor <;> assumption
  unfold State.stepMCheck
  split_ifs with empty range small
  · exact maskTrace_of_finish rfl stopped
  · exact maskTrace_of_finish rfl stopped
  · exact maskTrace_of_finish rfl stopped
  · exact ⟨latched', mem, latched.size ▸ not_lt.mp small, by simp, responses⟩

theorem maskTrace_markRead {s u : State} (b : Byte) (latched : s.Latched u.eng) (mem : u.mem = s.mem)
    (least : 8 ≤ s.bufSize.toNat) (count : u.eng.markCount.toNat < 4)
    (responses : u.responses = s.responses.drop (u.eng.markCount.toNat + 1)) : s.MaskTrace (u.markRead b) := by
  have stopped : s.Stopped u.mem := State.stopped_of_mem_eq mem
  by_cases more : u.eng.markCount.toNat < 3
  · have next : (u.eng.markCount + 1).toNat = u.eng.markCount.toNat + 1 := by bv_omega
    rw [markRead_of_more b more]
    obtain ⟨op, key, nonce, base, size⟩ := latched
    refine ⟨⟨op, key, nonce, base, size⟩, mem, least, ?_, ?_⟩
    · show (u.eng.markCount + 1).toNat < 4
      omega
    · show u.responses = s.responses.drop (u.eng.markCount + 1).toNat
      rw [next, responses]
  · have three : u.eng.markCount = 3 := by bv_omega
    obtain ⟨f, op, key, nonce, base, size, read⟩ := markRead_fourth b three
    rw [read]
    split_ifs with foreign eight
    · exact maskTrace_of_finish rfl stopped
    · exact maskTrace_of_finish rfl stopped
    · have large : s.bufSize.toNat ≠ 8 := fun h => eight (latched.size.trans (BitVec.eq_of_toNat_eq h))
      have inside : 0 < s.windowSize := lt_min (by decide) (by omega)
      refine ⟨0, inside, ⟨⟨op.trans latched.op, key.trans latched.key, nonce.trans latched.nonce, base.trans latched.base,
        size.trans latched.size⟩, ?_, rfl, rfl⟩, mem ▸ s.holdsPrefix_zero, by rw [three] at responses; exact responses⟩
      show BitVec.ofNat 32 (windowLength u.eng.size.toNat) = _
      rw [latched.size, s.windowSize_eq]

theorem maskTrace_byteDone {s u : State} {j : Nat} (inside : j < s.windowSize) (at_j : s.AtByte j u.eng)
    (block : u.eng.HasBlock j) (holds : s.HoldsPrefix (j + 1) u.mem) (responses : u.responses = s.responses.drop (4 + 2 * (j + 1))) :
    s.MaskTrace u.byteDone := by
  by_cases last : j + 1 = s.windowSize
  · obtain ⟨f, -, done⟩ := byteDone_last at_j last
    rw [done]
    exact maskTrace_of_finish rfl (holds.stopped last.le)
  · by_cases boundary : (j + 1) % 64 = 0
    · obtain ⟨f, at_next, done⟩ := byteDone_block at_j (by omega) boundary
      rw [done]
      exact ⟨j + 1, by omega, at_next, holds, responses⟩
    · obtain ⟨f, at_next, block', done⟩ := byteDone_more at_j block (by omega) boundary
      rw [done]
      exact ⟨j + 1, ⟨by omega, at_next, holds, responses⟩, block'⟩

/-- The engine at window byte `j` has not changed but for what is none of its latches and counters. -/
theorem State.AtByte.congr {s : State} {j : Nat} {e f : Engine} (h : s.AtByte j e)
    (same : f.op = e.op ∧ f.key = e.key ∧ f.nonce = e.nonce ∧ f.base = e.base ∧ f.size = e.size ∧ f.win = e.win ∧ f.off = e.off ∧
      f.ctr = e.ctr) : s.AtByte j f := by
  obtain ⟨op, key, nonce, base, size, win, off, ctr⟩ := same
  obtain ⟨latched, win', off', ctr'⟩ := h
  exact ⟨⟨op.trans latched.op, key.trans latched.key, nonce.trans latched.nonce, base.trans latched.base, size.trans latched.size⟩,
    win.trans win', off.trans off', ctr.trans ctr'⟩

/-- Every engine move of a MASK_HEADER in no race keeps the trace. -/
theorem EngineMove.maskTrace {s u t : State} (h : EngineMove u t) (unraced : u.raced = []) (trace : s.MaskTrace u) :
    s.MaskTrace t := by
  cases h with
  | idle | never => exact trace
  | gRun phase => simp [State.MaskTrace, phase] at trace
  | mCheck phase =>
    simp only [State.MaskTrace, phase] at trace
    obtain ⟨latched, mem, responses⟩ := trace
    exact maskTrace_stepMCheck latched mem responses
  | mMark b n phase =>
    simp only [State.MaskTrace, phase] at trace
    obtain ⟨latched, mem, least, count, responses⟩ := trace
    exact maskTrace_markRead b latched mem least count (by simp [responses])
  | mMarkErr rs phase =>
    simp only [State.MaskTrace, phase] at trace
    obtain ⟨-, mem, -⟩ := trace
    exact maskTrace_of_finish rfl (State.stopped_of_mem_eq mem)
  | mKgen phase =>
    simp only [State.MaskTrace, phase] at trace
    obtain ⟨j, inside, at_j, holds, responses⟩ := trace
    rw [stepMKgen_eq]
    refine ⟨j, ⟨inside, at_j.congr ⟨rfl, rfl, rfl, rfl, rfl, rfl, rfl, rfl⟩, holds, responses⟩, ?_⟩
    show keystream u.eng.key u.eng.ctr u.eng.nonce = _
    rw [at_j.latched.key, at_j.latched.nonce, at_j.ctr]
  | mRd b n phase read =>
    simp only [State.MaskTrace, phase] at trace
    obtain ⟨j, ⟨inside, at_j, holds, responses⟩, block⟩ := trace
    refine ⟨j, ⟨inside, at_j.congr ⟨rfl, rfl, rfl, rfl, rfl, rfl, rfl, rfl⟩, holds, by simp [responses]⟩, block, ?_⟩
    rw [← holds.next, ← at_j.windowAddr inside]
    exact read unraced
  | mRdErr rs phase =>
    simp only [State.MaskTrace, phase] at trace
    obtain ⟨j, ⟨inside, -, holds, -⟩, -⟩ := trace
    exact maskTrace_of_finish rfl (holds.stopped inside.le)
  | mWr phase =>
    simp only [State.MaskTrace, phase] at trace
    obtain ⟨j, ⟨inside, at_j, holds, responses⟩, block, rbyte⟩ := trace
    have used : u.responses.tail = s.responses.drop (4 + 2 * (j + 1)) := by rw [responses, List.tail_drop]; rfl
    refine maskTrace_byteDone inside at_j block ?_ used
    rw [at_j.windowAddr inside]
    exact holds.write (by rw [maskedByte_eq at_j inside block, rbyte])
  | mWrErr rs phase address answer =>
    simp only [State.MaskTrace, phase] at trace
    obtain ⟨j, ⟨inside, at_j, holds, responses⟩, -⟩ := trace
    refine maskTrace_of_finish rfl ⟨j, inside.le, fun a => ?_⟩
    by_cases failed : a = s.bufBase.toNat + 8 + j
    · exact .inr ⟨failed, inside, by rw [← List.head?_drop, ← responses, answer]; rfl⟩
    · rw [← at_j.windowAddr inside] at failed
      exact .inl ((Memory.read_write_of_ne _ _ failed).trans (holds a))
  | finish phase =>
    simp only [State.MaskTrace, phase] at trace
    show s.Stopped u.finish.mem
    rw [State.finish_mem, unraced]
    exact trace

theorem maskTrace_exec {s t : State} (busy : s.status.busy = false) (next : exec .maskHeader s = .next t) :
    t.raced = [] ∧ s.MaskTrace t := by
  rw [exec_maskHeader busy] at next
  have start : (s.accept s.maskLatches .mCheck).raced = [] ∧ s.MaskTrace (s.accept s.maskLatches .mCheck) :=
    ⟨rfl, s.latched_maskLatches, rfl, rfl⟩
  refine runEngine_keeps (P := fun t => t.raced = [] ∧ s.MaskTrace t) (fun u v ⟨unraced, trace⟩ step => ?_) _ start next
  have move := engineStep_move step
  refine ⟨?_, move.maskTrace unraced trace⟩
  rcases move.finish_or_within with ⟨-, rfl⟩ | within
  · rfl
  · rw [within.raced, unraced]

/-- A reset with no race leaves memory as the abort does (R242). -/
theorem readByte_resetBlock_unraced {t : State} (unraced : t.raced = []) (a : Nat) :
    t.resetBlock.readByte a = Memory.read t.abortedMem a :=
  Memory.read_settleRaces_of_not_mem _ _ _ (by simp [unraced])

/-- Only a write in flight is left to chance (R242). -/
theorem abortedMem_of_not_mWr {t : State} (phase : t.phase ≠ .mWr) : t.abortedMem = t.mem := if_neg fun h => phase h.1

/-- What the abort leaves, by the phase in which the reset found the command: the write in flight, if it completes, makes the prefix
one byte longer. -/
theorem abortedMem_of_trace {s t : State} (trace : s.MaskTrace t) :
    (∃ k, k ≤ s.windowSize ∧ s.HoldsPrefix k t.abortedMem) ∨
      ((t.phase = .finish ∨ t.phase = .idle) ∧ s.Stopped t.abortedMem) := by
  by_cases writes : t.phase = .mWr
  · simp only [State.MaskTrace, writes] at trace
    obtain ⟨j, ⟨inside, at_j, holds, -⟩, block, rbyte⟩ := trace
    left
    unfold State.abortedMem
    split_ifs
    · refine ⟨j + 1, inside, ?_⟩
      rw [at_j.windowAddr inside]
      exact holds.write (by rw [maskedByte_eq at_j inside block, rbyte])
    · exact ⟨j, inside.le, holds⟩
  rw [abortedMem_of_not_mWr writes]
  cases phase : t.phase <;> simp only [State.MaskTrace, phase] at trace
  case mCheck =>
    obtain ⟨-, mem, -⟩ := trace
    exact .inl ⟨0, Nat.zero_le _, mem ▸ s.holdsPrefix_zero⟩
  case mMark =>
    obtain ⟨-, mem, -⟩ := trace
    exact .inl ⟨0, Nat.zero_le _, mem ▸ s.holdsPrefix_zero⟩
  case mKgen =>
    obtain ⟨j, inside, -, holds, -⟩ := trace
    exact .inl ⟨j, inside.le, holds⟩
  case mRd =>
    obtain ⟨j, ⟨inside, -, holds, -⟩, -⟩ := trace
    exact .inl ⟨j, inside.le, holds⟩
  case mWr => exact absurd phase writes
  case finish => exact .inr ⟨.inl rfl, trace⟩
  case idle => exact .inr ⟨.inr rfl, trace⟩

/-- Settles O44: the trace of the command (`State.MaskTrace`) gives the prefix that the reset finds (`abortedMem_of_trace`). -/
theorem resetLeavesAMaskedPrefix : Obligations.ResetLeavesAMaskedPrefix := by
  intro s t _ busy _ next
  obtain ⟨unraced, trace⟩ := maskTrace_exec busy next
  simp only [readByte_resetBlock_unraced unraced]
  rcases abortedMem_of_trace trace with ⟨k, hk, holds⟩ | ⟨ended, k, hk, holds⟩
  · exact ⟨k, hk, fun a => .inl (holds a)⟩
  · refine ⟨k, hk, fun a => (holds a).imp_right ?_⟩
    rintro ⟨failed, inside, answer⟩
    exact ⟨failed, inside, answer, ended⟩

end Sys2Proof.Machine

namespace Sys2Proof.Machine

/-! COUNTER, KEY and NONCE are no operands of MASK_HEADER (R150, R160). -/

theorem runEngine_withOperands (o : Operands) (n : Nat) (s : State) :
    runEngine n (s.withOperands o) = resultWithOperands o (runEngine n s) := by
  induction n generalizing s with
  | zero => rfl
  | succ n ih =>
    rw [runEngine_succ, runEngine_succ, engineStep_withOperands]
    cases engineStep s with
    | next t => exact ih t
    | fault | refused => rfl

/-- A write to COUNTER, a KEY or a NONCE register, as operands overwritten that are none of the buffer's. -/
theorem writeReg_noBuffer {r : Reg} (h : r = .counter ∨ (∃ i, r = .key i) ∨ ∃ i, r = .nonce i) :
    r.access = .rw ∧ ∀ (o : Operands) (v : Word), (o.write r v).bufBaseLo = o.bufBaseLo ∧ (o.write r v).bufBaseHi = o.bufBaseHi ∧
      (o.write r v).bufSizeLo = o.bufSizeLo ∧ (o.write r v).bufSizeHi = o.bufSizeHi := by
  rcases h with rfl | ⟨i, rfl⟩ | ⟨i, rfl⟩ <;> exact ⟨rfl, fun _ _ => ⟨rfl, rfl, rfl, rfl⟩⟩

/-- MASK_HEADER latches of the operand registers the buffer's only (R94). -/
theorem issue_maskHeader_withOperands (s : State) {o : Operands} (baseLo : o.bufBaseLo = s.bufBaseLo)
    (baseHi : o.bufBaseHi = s.bufBaseHi) (sizeLo : o.bufSizeLo = s.bufSizeLo) (sizeHi : o.bufSizeHi = s.bufSizeHi) :
    (s.withOperands o).issue (s.withOperands o).acceptMaskHeader = (s.issue s.acceptMaskHeader).withOperands o := by
  have latches : (s.withOperands o).acceptMaskHeader = s.acceptMaskHeader.withOperands o := by
    simp only [State.acceptMaskHeader, State.accept, State.withOperands, State.bufBase, State.bufSize, baseLo, baseHi, sizeLo,
      sizeHi]
  rw [latches, State.issue, State.issue, apply_ite (State.withOperands o)]
  rfl

theorem issue_maskHeader_operands (s : State) : (s.issue s.acceptMaskHeader).operands = s.operands := by
  unfold State.issue
  split <;> rfl

/-- Settles O53: the write overwrites operands that acceptance does not latch (`issue_maskHeader_withOperands`) and that the engine
neither reads (`runEngine_withOperands`) nor writes (`EngineKeeps`). -/
theorem maskHeaderIgnoresKeyNonceCounter : Obligations.MaskHeaderIgnoresKeyNonceCounter := by
  intro s r v noBuffer
  obtain ⟨isRw, kept⟩ := writeReg_noBuffer noBuffer
  obtain ⟨baseLo, baseHi, sizeLo, sizeHi⟩ := kept s.operands v
  have run : exec .maskHeader (s.writeReg r v) = resultWithOperands (s.operands.write r v) (exec .maskHeader s) := by
    rw [s.writeReg_eq_withOperands v isRw, exec, execMaskHeader, issue_maskHeader_withOperands s baseLo baseHi sizeLo sizeHi]
    exact runEngine_withOperands _ _ _
  rw [run]
  cases next : exec .maskHeader s with
  | next t =>
    have keeps : EngineKeeps (s.issue s.acceptMaskHeader) t := advance_keeps next
    have operands : t.operands = s.operands := keeps.operands.trans (issue_maskHeader_operands s)
    simp only [resultWithOperands, andThen_next, t.writeReg_eq_withOperands v isRw, operands]
  | fault | refused => rfl

/-! The race (R74; log 9). -/

theorem touchable_iff (s : State) (a : Nat) :
    s.touchable a = true ↔ s.status.busy = true ∧ s.eng.op = .instr .maskHeader ∧
      (s.eng.base.toNat ≤ a ∧ a ≤ s.eng.base.toNat + 3 ∨ s.eng.base.toNat + 8 ≤ a ∧ a ≤ s.eng.base.toNat + 8 + 0x1FF) := by
  simp only [State.touchable, Bool.and_eq_true, Bool.or_eq_true, beq_iff_eq, decide_eq_true_eq, and_assoc]
  have range : (s.eng.base.toNat ≤ a ∧ a < s.eng.base.toNat + 4 ∨
      s.eng.base.toNat + Config.hdrOffset ≤ a ∧ a < s.eng.base.toNat + Config.hdrOffset + Config.windowCap) ↔
      (s.eng.base.toNat ≤ a ∧ a ≤ s.eng.base.toNat + 3 ∨ s.eng.base.toNat + 8 ≤ a ∧ a ≤ s.eng.base.toNat + 8 + 0x1FF) := by
    simp only [Config.hdrOffset, Config.windowCap]
    omega
  rw [range]

/-- A host write into the range of a race changes memory and the list of raced bytes, and puts its byte on that list. -/
theorem hostStore_of_touchable {s : State} {a : Nat} {v : Byte} (h : s.touchable a = true) :
    s.hostStore a v = { s with mem := (s.hostStore a v).mem, raced := (s.hostStore a v).raced } ∧
      a ∈ (s.hostStore a v).raced ∧ ∀ b ∈ s.raced, b ∈ (s.hostStore a v).raced := by
  unfold State.hostStore
  rw [if_pos h]
  refine ⟨rfl, ?_, fun b raced => ?_⟩
  · show a ∈ (if a ∈ s.raced then s.raced else a :: s.raced)
    split_ifs with already
    · exact already
    · exact List.mem_cons_self
  · show b ∈ (if a ∈ s.raced then s.raced else a :: s.raced)
    split_ifs
    · exact raced
    · exact List.mem_cons_of_mem _ raced

theorem hostStore_of_not_touchable {s : State} {a : Nat} {v : Byte} (h : s.touchable a = false) :
    s.hostStore a v = s.stored a v := by
  simp [State.hostStore, h]

theorem State.hostStore_slack (s : State) (a : Nat) (v : Byte) : (s.hostStore a v).slack = s.slack := by
  unfold State.hostStore
  split <;> rfl

theorem State.hostLoad_slack (s : State) (a i : Nat) : (s.hostLoad a i).slack = s.slack := by
  unfold State.hostLoad
  split <;> rfl

theorem step_of_memWr {s : State} {d : DWord} {v : Byte} {k : Slack} {rest : List HostTurn}
    (host : s.host = { op := .memWr d v, slack := k } :: rest) (ordinary : s.isDevice d.toNat = false) :
    step s = runEngine k.count (State.hostStore { s with host := rest, slack := k } d.toNat v) := by
  have ordinary' : State.isDevice { s with host := rest, slack := k } d.toNat = false := ordinary
  rw [step_of_turn host]
  simp [hostTurn, ordinary', advance, State.hostStore_slack]

theorem step_of_memRd {s : State} {d : DWord} {i : Nat} {k : Slack} {rest : List HostTurn}
    (host : s.host = { op := .memRd d i, slack := k } :: rest) (ordinary : s.isDevice d.toNat = false) :
    step s = runEngine k.count (State.hostLoad { s with host := rest, slack := k } d.toNat i) := by
  have ordinary' : State.isDevice { s with host := rest, slack := k } d.toNat = false := ordinary
  rw [step_of_turn host]
  simp [hostTurn, ordinary', advance, State.hostLoad_slack]

/-- Every settled byte holds a free value, whichever of its draws comes last. -/
theorem read_settleRaces_of_mem (as : List Nat) (n : Nat) (m : List Host.Cell) {a : Nat} (h : a ∈ as) :
    ∃ i, Memory.read (settleRaces as n m) a = Config.freeByte i := by
  induction as generalizing n m with
  | nil => cases h
  | cons b as ih =>
    by_cases later : a ∈ as
    · exact ih _ _ later
    · obtain rfl : a = b := (List.mem_cons.mp h).resolve_right later
      exact ⟨n, by rw [settleRaces, Memory.read_settleRaces_of_not_mem _ _ _ later, Memory.read_write_self]⟩

/-- A raced byte stays on the list until FINISH settles it with a free value. -/
theorem engineStep_raced {s t : State} (next : engineStep s = .next t) {a : Nat} (raced : a ∈ s.raced) :
    a ∈ t.raced ∨ (t.phase = .idle ∧ ∃ n, t.readByte a = Config.freeByte n) := by
  rcases (engineStep_move next).finish_or_within with ⟨-, rfl⟩ | within
  · exact .inr ⟨rfl, read_settleRaces_of_mem _ _ _ raced⟩
  · exact .inl (within.raced ▸ raced)

/-- The engine's own read of a raced byte, answered OK, draws a free value. -/
theorem memRead_raced {s t : State} {a : Nat} {onOk : Byte → State → Result} {onErr : State → Result}
    (next : memRead s a onOk onErr = .next t) (raced : a ∈ s.raced)
    (answer : s.responses.head? = none ∨ s.responses.head? = some .ok) :
    onOk (Config.freeByte s.freeCtr) { s with responses := s.responses.tail, freeCtr := s.freeCtr + 1 } = .next t := by
  obtain ⟨range, ordinary, -⟩ := transact_cases next
  have ok : ∀ r ∈ s.responses.head?, r = .ok := by
    rcases answer with none | ok
    · simp [none]
    · simp [ok]
  rw [memRead, transact_ok range ordinary ok] at next
  simpa only [State.portByte, State.afterPortRead, if_pos raced] using next

theorem markRead_mark (s : State) (b : Byte) (h : s.eng.markCount.toNat < 4) :
    (s.markRead b).eng.mark[s.eng.markCount.toNat]? = some b ∧ (s.markRead b).freeCtr = s.freeCtr := by
  have written : (s.eng.mark.setIfInBounds s.eng.markCount.toNat b)[s.eng.markCount.toNat]? = some b := by
    simp [h]
  unfold State.markRead
  simp only
  split_ifs
  all_goals exact ⟨written, rfl⟩

/-- Settles O60: each clause is the host's or the engine's one rule about a byte in the range of a race. -/
theorem raceDrawsFreeValues : Obligations.RaceDrawsFreeValues := by
  refine fun s => ⟨touchable_iff s, fun d v k rest host ordinary => ?_, fun d i k rest host ordinary => ?_,
    fun t next a => engineStep_raced next, fun t next phase count raced answer => ?_, fun t next phase raced answer => ?_⟩
  · refine ⟨_, step_of_memWr host ordinary, fun touched => ?_, fun untouched => ?_, fun a other => ?_⟩
    · obtain ⟨same, listed, kept⟩ := hostStore_of_touchable (s := { s with host := rest, slack := k }) (v := v) touched
      exact ⟨same, listed, fun a raced => State.mem_raced_hostStore (s := { s with host := rest, slack := k }) raced,
        kept⟩
    · rw [hostStore_of_not_touchable (by exact untouched)]
      exact ⟨rfl, readByte_stored_self _ _ _⟩
    · exact State.readByte_hostStore_of_ne _ v other
  · rw [step_of_memRd host ordinary]
    exact ⟨fun touched => congrArg _ (if_pos touched), fun untouched => congrArg _ (if_neg (ne_true_of_eq_false untouched))⟩
  · rw [engineStep_mMark phase] at next
    cases memRead_raced next raced answer
    exact markRead_mark { s with responses := s.responses.tail, freeCtr := s.freeCtr + 1 } _ count
  · rw [engineStep_mRd phase] at next
    cases memRead_raced next raced answer
    exact ⟨rfl, rfl⟩

end Sys2Proof.Machine

namespace Sys2Proof.Machine

/-! The engine steps of MASK_HEADER against the pseudocode (R150, R168). The pseudocode runs in the accepted state, so its states
differ from the engine's in the engine and the phase only. -/

/-- The state with another engine and phase. -/
def State.withEngine (e : Engine) (p : Phase) (s : State) : State := { s with eng := e, phase := p }

/-- Every run of the engine from `s` that is long enough comes to `r`. -/
def RunsTo (s : State) (r : Result) : Prop := ∃ n, ∀ m, n ≤ m → runEngine m s = r

theorem RunsTo.step {s t : State} {r : Result} (h : RunsTo t r) (step : engineStep s = .next t) : RunsTo s r := by
  obtain ⟨n, run⟩ := h
  exact ⟨n + 1, fun m hm => (runEngine_of_step step (by omega)).trans (run _ (by omega))⟩

theorem RunsTo.stop {s : State} {r : Result} (step : engineStep s = r) (stops : ∀ t, r ≠ .next t) : RunsTo s r := by
  refine ⟨1, fun m hm => ?_⟩
  obtain ⟨k, rfl⟩ := Nat.exists_eq_add_of_le hm
  rw [Nat.add_comm, runEngine_succ, step]
  cases r with
  | next t => exact absurd rfl (stops t)
  | fault | refused => rfl

/-- A result raised by a command that is no generator's: the pseudocode completes it on the spot (R205, R206). -/
theorem runsTo_raise {u : State} {e : Engine} {p : Phase} {c : OutcomeCode} (w d l : Word) (noKs : writesKs u.eng.op c = false)
    (noKs' : writesKs e.op c = false) : RunsTo (u.raise c w d l) ((u.withEngine e p).complete c w d l) := by
  have same : (u.raise c w d l).finish = ((u.withEngine e p).raise c w d l).finish := by
    simp [State.finish, State.raise, State.withEngine, noKs, noKs']
  exact ⟨1, fun m hm => by rw [runEngine_finish rfl hm, same]; rfl⟩

theorem transact_outside {s : State} {a : Nat} {onOk onErr : State → Result} (h : Config.memSpan ≤ a) :
    transact s a onOk onErr = .fault (.addressOutsideMemory a) :=
  if_pos h

theorem transact_device {s : State} {a : Nat} {onOk onErr : State → Result} (inside : ¬ Config.memSpan ≤ a)
    (h : s.isDevice a = true) : transact s a onOk onErr = .refused (.deviceMemory a) :=
  (if_neg inside).trans (if_pos h)

section Transactions

variable {u : State} {a : Nat} {e : Engine} {p : Phase}

/-- A transaction that the engine makes and the pseudocode makes too, what follows agreeing after each answer. -/
theorem runsTo_transact {f g : State → State} {f' g' : State → Result} (answered : u.Answered)
    (step : engineStep u = transact u a (fun t => .next (f t)) (fun t => .next (g t)))
    (ok : ∀ rs, .never ∉ rs → RunsTo (f { u with responses := rs }) (f' (State.withEngine e p { u with responses := rs })))
    (err : ∀ rs, .never ∉ rs → RunsTo (g { u with responses := rs }) (g' (State.withEngine e p { u with responses := rs }))) :
    RunsTo u (transact (u.withEngine e p) a f' g') := by
  by_cases outside : Config.memSpan ≤ a
  · rw [transact_outside outside] at step ⊢
    exact RunsTo.stop step (by simp)
  by_cases device : u.isDevice a = true
  · rw [transact_device outside device] at step
    rw [transact_device outside (s := u.withEngine e p) device]
    exact RunsTo.stop step (by simp)
  have inside := Nat.lt_of_not_le outside
  have ordinary := Bool.eq_false_iff.mpr device
  rcases head : u.responses with _ | ⟨_ | _ | _, rs⟩
  case cons.busErr =>
    rw [transact_busErr inside ordinary head] at step
    rw [transact_busErr inside (s := u.withEngine e p) ordinary head]
    exact (err rs fun hang => answered (by simp [head, hang])).step step
  case cons.never => exact absurd (by simp [head]) answered
  all_goals
    rw [transact_ok inside ordinary (by simp [head])] at step
    rw [transact_ok inside (s := u.withEngine e p) ordinary (by simp [State.withEngine, head])]
    exact (ok u.responses.tail fun hang => answered (List.mem_of_mem_tail hang)).step step

theorem afterPortRead_withEngine : (u.withEngine e p).afterPortRead a = (u.afterPortRead a).withEngine e p := by
  simp only [State.afterPortRead, apply_ite (State.withEngine e p)]
  rfl

theorem runsTo_memRead {f : Byte → State → State} {g : State → State} {f' : Byte → State → Result} {g' : State → Result}
    (answered : u.Answered) (step : engineStep u = memRead u a (fun b t => .next (f b t)) (fun t => .next (g t)))
    (ok : ∀ b rs n, .never ∉ rs → RunsTo (f b { u with responses := rs, freeCtr := n })
      (f' b (State.withEngine e p { u with responses := rs, freeCtr := n })))
    (err : ∀ rs, .never ∉ rs → RunsTo (g { u with responses := rs }) (g' (State.withEngine e p { u with responses := rs }))) :
    RunsTo u (memRead (u.withEngine e p) a f' g') := by
  refine runsTo_transact answered step (fun rs live => ?_) err
  obtain ⟨n, read, -⟩ := portRead_eq u a rs
  rw [afterPortRead_withEngine, read]
  exact ok _ rs n live

theorem runsTo_memWrite {v : Byte} {f g : State → State} {f' g' : State → Result} (answered : u.Answered)
    (step : engineStep u = memWrite u a v (fun t => .next (f t)) (fun t => .next (g t)))
    (ok : ∀ rs, .never ∉ rs → RunsTo (f (State.stored { u with responses := rs } a v))
      (f' (State.withEngine e p (State.stored { u with responses := rs } a v))))
    (err : ∀ rs, .never ∉ rs → RunsTo (g (State.storeFailed { u with responses := rs } a))
      (g' (State.withEngine e p (State.storeFailed { u with responses := rs } a)))) :
    RunsTo u (memWrite (u.withEngine e p) a v f' g') :=
  runsTo_transact answered step ok err

end Transactions

/-! The window. -/

section Window

variable {s u : State} {e : Engine} {p : Phase} {j c i n : Nat} {k : State → Result}

/-- The pseudocode's completion by a BUSERR on window byte `j` (R167). -/
def State.windowBusError (s : State) (j : Nat) (t : State) : Result :=
  t.complete .errBus (BitVec.ofNat 32 s.windowSize) (BitVec.ofNat 32 j) (BitVec.ofNat 32 (j / 64 + 1))

theorem runsTo_windowError (at_j : s.AtByte j u.eng) (noKs : ∀ c, writesKs e.op c = false) :
    RunsTo u.windowError (s.windowBusError j (u.withEngine e p)) := by
  rw [windowError_eq at_j]
  exact runsTo_raise _ _ _ (at_j.latched.noKs _) (noKs _)

/-- One window byte read and written (R163, R164). -/
theorem runsTo_windowByte (noKs : ∀ c, writesKs e.op c = false) (answered : u.Answered) (phase : u.phase = .mRd)
    (at_j : s.AtByte j u.eng) (block : u.eng.HasBlock j) (inside : j < s.windowSize)
    (done : ∀ v : State, v.Answered → s.AtByte j v.eng → v.eng.HasBlock j → RunsTo v.byteDone (k (v.withEngine e p))) :
    RunsTo u (memRead (u.withEngine e p) (s.bufBase.toNat + 8 + j)
      (fun b t => memWrite t (s.bufBase.toNat + 8 + j) (b ^^^ windowKeyByte j) k (s.windowBusError j)) (s.windowBusError j)) := by
  rw [← at_j.windowAddr inside]
  refine runsTo_memRead answered (engineStep_mRd phase) (fun b rs n live => ?_) fun rs _ => runsTo_windowError at_j noKs
  let v : State := { u with responses := rs, freeCtr := n, eng := { u.eng with rbyte := b }, phase := .mWr }
  have at_v : s.AtByte j v.eng := at_j.congr ⟨rfl, rfl, rfl, rfl, rfl, rfl, rfl, rfl⟩
  have masked : v.eng.maskedByte = b ^^^ windowKeyByte j := maskedByte_eq at_v inside block
  rw [← masked]
  exact runsTo_memWrite (u := v) live (engineStep_mWr rfl) (fun rs live => done _ live at_v block)
    fun rs _ => runsTo_windowError at_v noKs

/-- One byte of `maskBlock`, in terms of the window (R162). -/
theorem maskBlock_succ (base win c n i : Nat) (hi : i < 64) (t : State) (k : State → Result) :
    maskBlock base (keystream Config.fixedKey (BitVec.ofNat 32 c) Config.fixedNonce) win (64 * c) c (n + 1) i t k =
      memRead t (base + 8 + (64 * c + i))
        (fun b t => memWrite t (base + 8 + (64 * c + i)) (b ^^^ windowKeyByte (64 * c + i))
          (fun t => maskBlock base (keystream Config.fixedKey (BitVec.ofNat 32 c) Config.fixedNonce) win (64 * c) c n (i + 1) t k)
          fun t => t.complete .errBus (BitVec.ofNat 32 win) (BitVec.ofNat 32 (64 * c + i)) (BitVec.ofNat 32 ((64 * c + i) / 64 + 1)))
        fun t => t.complete .errBus (BitVec.ofNat 32 win) (BitVec.ofNat 32 (64 * c + i)) (BitVec.ofNat 32 ((64 * c + i) / 64 + 1)) := by
  have counter : (64 * c + i) / 64 = c := by omega
  have byte : (64 * c + i) % 64 = i % 64 := by omega
  simp only [maskBlock, windowKeyByte, Config.blockBytes, Config.hdrOffset, counter, byte, Nat.add_assoc]

/-- The bytes of one keystream block, from byte `i` of it on, up to the end of the block or of the window (R162 to R164). -/
theorem runsTo_maskBlock (noKs : ∀ c, writesKs e.op c = false) (answered : u.Answered) (phase : u.phase = .mRd)
    (at_i : s.AtByte (64 * c + i) u.eng) (block : u.eng.HasBlock (64 * c + i)) (inside : 64 * c + i + n < s.windowSize)
    (inBlock : i + n < 64)
    (done : ∀ v : State, v.Answered → s.AtByte (64 * c + i + n) v.eng → RunsTo v.byteDone (k (v.withEngine e p))) :
    RunsTo u (maskBlock s.bufBase.toNat (keystream Config.fixedKey (BitVec.ofNat 32 c) Config.fixedNonce) s.windowSize (64 * c) c
      (n + 1) i (u.withEngine e p) k) := by
  induction n generalizing u i with
  | zero =>
    rw [maskBlock_succ _ _ _ _ _ (by omega)]
    exact runsTo_windowByte noKs answered phase at_i block inside fun v live at_v _ => done v live at_v
  | succ n ih =>
    rw [maskBlock_succ _ _ _ _ _ (by omega)]
    refine runsTo_windowByte noKs answered phase at_i block (by omega) fun v live at_v block_v => ?_
    obtain ⟨f, at_f, block_f, more⟩ := byteDone_more at_v block_v (by omega) (by omega)
    rw [more]
    refine ih (u := { v with eng := f, phase := .mRd }) live rfl at_f block_f (by omega) (by omega) fun w live at_w => ?_
    exact done w live (by rwa [show 64 * c + i + (n + 1) = 64 * c + (i + 1) + n by omega])

theorem maskWindow_end (base fuel ctr : Nat) {win off : Nat} (h : win ≤ off) (t : State) :
    maskWindow base win fuel off ctr t = t.complete .ok (BitVec.ofNat 32 win) (BitVec.ofNat 32 win) (BitVec.ofNat 32 ctr) := by
  cases fuel with
  | zero => rfl
  | succ fuel => exact if_neg (by omega)

/-- The loop over the keystream blocks, from block `c` on (R150, R161, R165). -/
theorem runsTo_maskWindow (noKs : ∀ c, writesKs e.op c = false) {fuel : Nat} (answered : u.Answered) (phase : u.phase = .mKgen)
    (at_c : s.AtByte (64 * c) u.eng) (inside : 64 * c < s.windowSize) (room : s.windowSize ≤ 64 * (c + fuel)) :
    RunsTo u (maskWindow s.bufBase.toNat s.windowSize fuel (64 * c) c (u.withEngine e p)) := by
  induction fuel generalizing u c with
  | zero => omega
  | succ fuel ih =>
    have generated : ∃ v : State, engineStep u = .next v ∧ v.Answered ∧ v.phase = .mRd ∧ s.AtByte (64 * c + 0) v.eng ∧
        v.eng.HasBlock (64 * c + 0) ∧ v.withEngine e p = (u.withEngine e p).releaseWork := by
      refine ⟨_, (engineStep_mKgen phase).trans (congrArg _ (stepMKgen_eq u)), answered, rfl,
        at_c.congr ⟨rfl, rfl, rfl, rfl, rfl, rfl, rfl, rfl⟩, ?_, rfl⟩
      show keystream u.eng.key u.eng.ctr u.eng.nonce = _
      rw [at_c.latched.key, at_c.latched.nonce, at_c.ctr, Nat.add_zero]
    obtain ⟨v, step, live, reading, at_v, block, work⟩ := generated
    obtain ⟨n, size⟩ : ∃ n, min Config.blockBytes (s.windowSize - 64 * c) = n + 1 :=
      ⟨min 64 (s.windowSize - 64 * c) - 1, by simp only [Config.blockBytes]; omega⟩
    simp only [Config.blockBytes] at size
    refine RunsTo.step ?_ step
    simp only [maskWindow, if_pos inside, Config.blockBytes, size, ← work]
    refine runsTo_maskBlock noKs live reading at_v block (by omega) (by omega) fun w live at_w => ?_
    rw [Nat.add_zero] at at_w
    rcases Nat.lt_or_ge (64 * c + (n + 1)) s.windowSize with more | last
    · obtain ⟨f, at_f, next⟩ := byteDone_block at_w more (by omega)
      have full : n = 63 := by omega
      subst full
      rw [next]
      exact ih (u := { w with eng := f, phase := .mKgen }) (c := c + 1) live rfl at_f more (by omega)
    · obtain ⟨f, latched, ends⟩ := byteDone_last at_w (by omega)
      have blocks : blocksFor s.windowSize = c + 1 := by
        rw [show s.windowSize = 64 * c + n + 1 by omega, blocksFor_last]
        omega
      rw [ends, maskWindow_end _ _ _ last, blocks]
      exact runsTo_raise (u := { w with eng := f }) _ _ _ (latched.noKs _) (noKs _)

end Window

/-! The marker, and M_CHECK. -/

section Command

variable {s u : State} {e : Engine} {p : Phase} {k : Nat}

/-- The engine has read the marker bytes `m`, those of a MASK_HEADER accepted in `s`. -/
structure State.HasRead (s : State) (m : List Byte) (f : Engine) : Prop where
  latched : s.Latched f
  count : f.markCount.toNat = m.length
  bytes : ∀ j (h : j < 4), j < m.length → f.mark[j] = m.getD j 0

/-- One marker byte read, and not the last. -/
theorem State.HasRead.more {m : List Byte} (read : s.HasRead m u.eng) (more : m.length < 3) (b : Byte) :
    ∃ f, s.HasRead (m ++ [b]) f ∧ u.markRead b = { u with eng := f, phase := .mMark } := by
  obtain ⟨⟨op, key, nonce, base, size⟩, count, bytes⟩ := read
  have below : u.eng.markCount.toNat < 3 := count ▸ more
  refine ⟨{ u.eng with mark := u.eng.mark.setIfInBounds u.eng.markCount.toNat b, markCount := u.eng.markCount + 1 },
    ⟨⟨op, key, nonce, base, size⟩, ?_, fun j hj counted => ?_⟩, markRead_of_more b below⟩
  · show (u.eng.markCount + 1).toNat = _
    rw [List.length_append, List.length_singleton]
    bv_omega
  · simp only [Vector.getElem_setIfInBounds, count]
    rw [List.length_append, List.length_singleton] at counted
    split_ifs with last
    · rw [← last, List.getD_eq_getElem?_getD]
      simp
    · rw [bytes j hj (by omega), List.getD_append _ _ _ _ (by omega)]

/-- The marker reads of the pseudocode are the engine's, from any byte of the marker on (R155). -/
theorem runsTo_readMarker {m : List Byte} {cont : List Byte → State → Result} (noKs : ∀ c, writesKs e.op c = false)
    (answered : u.Answered) (phase : u.phase = .mMark) (read : s.HasRead m u.eng) (left : m.length + k = 3)
    (fourth : ∀ (v : State) (m : List Byte) (b : Byte), v.Answered → m.length = 3 → s.HasRead m v.eng →
      RunsTo (v.markRead b) (cont (m ++ [b]) (v.withEngine e p))) :
    RunsTo u (readMarker s.bufBase.toNat (List.range' m.length (k + 1)) m (u.withEngine e p) cont) := by
  induction k generalizing u m with
  | zero =>
    rw [List.range'_succ, readMarker, ← read.count, ← read.latched.base]
    exact runsTo_memRead answered (engineStep_mMark phase) (fun b rs n live => fourth _ m b live left read)
      fun rs _ => runsTo_raise _ _ _ (read.latched.noKs _) (noKs _)
  | succ k ih =>
    rw [List.range'_succ, readMarker, ← read.count, ← read.latched.base]
    refine runsTo_memRead answered (engineStep_mMark phase) (fun b rs n live => ?_)
      fun rs _ => runsTo_raise _ _ _ (read.latched.noKs _) (noKs _)
    obtain ⟨f, read', next⟩ := State.HasRead.more (u := { u with responses := rs, freeCtr := n }) read (by omega) b
    rw [next, read.count, read.latched.base, show m.length + 1 = (m ++ [b]).length by simp]
    exact ih (u := { u with responses := rs, freeCtr := n, eng := f, phase := .mMark }) live rfl read' (by simp; omega)

/-- After the fourth marker byte: a skip, or the window (R156, R157, R161). -/
theorem runsTo_judged {m : List Byte} (noKs : ∀ c, writesKs e.op c = false) (large : 8 ≤ s.bufSize.toNat) (b : Byte)
    (answered : u.Answered) (length : m.length = 3) (read : s.HasRead m u.eng) :
    RunsTo (u.markRead b)
      (if le32 ((m ++ [b]).getD 0 0) ((m ++ [b]).getD 1 0) ((m ++ [b]).getD 2 0) ((m ++ [b]).getD 3 0) ≠ Config.magic then
        (u.withEngine e p).complete .skipFormatMismatch 0 0 0
      else if s.bufSize.toNat = 8 then (u.withEngine e p).complete .skipTooSmallNoWindow 0 0 0
      else maskWindow s.bufBase.toNat s.windowSize (Config.windowCap / Config.blockBytes) 0 0 (u.withEngine e p)) := by
  obtain ⟨latched, count, bytes⟩ := read
  obtain ⟨f, op, key, nonce, base, size, judged⟩ := markRead_fourth b (BitVec.eq_of_toNat_eq (count.trans length))
  have latched' : s.Latched f := ⟨op.trans latched.op, key.trans latched.key, nonce.trans latched.nonce, base.trans latched.base,
    size.trans latched.size⟩
  obtain ⟨x, y, z, rfl⟩ := List.length_eq_three.mp length
  rw [judged, bytes 0 (by omega) (by simp), bytes 1 (by omega) (by simp), bytes 2 (by omega) (by simp), latched.size]
  have eight : s.bufSize = 8 ↔ s.bufSize.toNat = 8 := by
    rw [← BitVec.toNat_inj]
    rfl
  simp only [eight, List.cons_append, List.nil_append, List.getD_cons_zero, List.getD_cons_succ]
  split_ifs with foreign small
  · exact runsTo_raise (u := { u with eng := f }) _ _ _ (latched'.noKs _) (noKs _)
  · exact runsTo_raise (u := { u with eng := f }) _ _ _ (latched'.noKs _) (noKs _)
  · have some : 0 < s.windowSize := lt_min (by decide) (by omega)
    exact runsTo_maskWindow (c := 0) (u := { u with eng := s.windowStart f, phase := .mKgen }) noKs answered rfl
      ⟨⟨latched'.op, latched'.key, latched'.nonce, latched'.base, latched'.size⟩, rfl, rfl, rfl⟩ some (min_le_left ..)

/-- The engine steps of a MASK_HEADER come to what the pseudocode gives, whatever the phase it starts with and whatever engine
that holds no generator command (R150, R168). -/
theorem runsTo_maskHeaderBig (noKs : ∀ c, writesKs e.op c = false) (answered : u.Answered) (phase : u.phase = .mCheck)
    (latched : s.Latched u.eng) : RunsTo u (maskHeaderBig s.bufBase.toNat s.bufSize.toNat (u.withEngine e p)) := by
  obtain ⟨op, key, nonce, base, size⟩ := id latched
  refine RunsTo.step ?_ (engineStep_mCheck phase)
  have zero : u.eng.size = 0 ↔ s.bufSize.toNat = 0 := by
    rw [size, ← BitVec.toNat_inj]
    rfl
  have range : u.eng.base.toNat + u.eng.size.toNat = s.bufBase.toNat + s.bufSize.toNat := by rw [base, size]
  have raised (c : OutcomeCode) : RunsTo (u.raise c 0 0 0) ((u.withEngine e p).complete c 0 0 0) :=
    runsTo_raise _ _ _ (latched.noKs _) (noKs _)
  by_cases empty : s.bufSize.toNat = 0
  · rw [maskHeaderBig, if_pos empty, stepMCheck_of_empty (zero.mpr empty)]
    exact raised _
  by_cases outside : Config.memSpan < s.bufBase.toNat + s.bufSize.toNat
  · rw [maskHeaderBig, if_neg empty, if_pos outside, stepMCheck_of_range (mt zero.mp empty) (range ▸ outside)]
    exact raised _
  have inside := Nat.le_of_not_lt outside
  by_cases small : s.bufSize.toNat < 8
  · rw [maskHeaderBig, if_neg empty, if_neg outside, if_pos small,
      stepMCheck_of_small (mt zero.mp empty) (range ▸ inside) (size ▸ small)]
    exact raised _
  have large := Nat.le_of_not_lt small
  rw [maskHeaderBig, if_neg empty, if_neg outside, if_neg small, stepMCheck_of_ok (range ▸ inside) (size ▸ large)]
  exact runsTo_readMarker (k := 3) (u := { u with eng := { u.eng with markCount := 0 }, phase := .mMark }) (m := []) noKs answered
    rfl ⟨⟨op, key, nonce, base, size⟩, rfl, by simp⟩ rfl
    fun v m b live length read => runsTo_judged noKs large b live length read

/-- 1038 steps are enough for a command whose every transaction is answered (R253). -/
theorem RunsTo.runEngine {r : Result} (h : RunsTo u r) (ok : u.EngineOk) (answered : u.Answered) : runEngine 1038 u = r := by
  obtain ⟨n, run⟩ := h
  have long := run (1038 + n) (by omega)
  rcases runEngine_next_or_device 1038 ok with ⟨t, next⟩ | ⟨a, -, stop⟩
  · have ok' : t.EngineOk := runEngine_keeps (fun _ _ ok step => (engineStep_move step).engineOk ok) 1038 ok next
    have idle : t.phase = .idle := idle_of_stepsLeft ok' (by
      have := runEngine_stepsLeft ok answered next
      have := stepsLeft_le ok
      omega)
    rw [next, ← long, runEngine_of_le next idle (by omega)]
  · rw [stop, ← long, runEngine_add, stop]
    rfl

/-- MASK_HEADER run to its end, by the pseudocode (R150); of the engine `e` it starts with only the command counts. -/
theorem exec_maskHeader_eq_big (busy : s.status.busy = false) (answered : s.Answered) (slack : s.slack = .untilIdle)
    (noKs : ∀ c, writesKs e.op c = false) :
    exec .maskHeader s = maskHeaderBig s.bufBase.toNat s.bufSize.toNat (s.accept e .mCheck) := by
  rw [exec_maskHeader busy, slack]
  exact (runsTo_maskHeaderBig (u := s.accept s.maskLatches .mCheck) (p := .mCheck) noKs answered rfl
    s.latched_maskLatches).runEngine ⟨rfl, rfl, rfl⟩ answered

end Command

/-- Settles O42. -/
theorem engineStepsMeetThePseudocode : Obligations.EngineStepsMeetThePseudocode := fun s busy answered slack =>
  exec_maskHeader_eq_big busy answered slack s.latched_maskLatches.noKs

/-- Settles O54: a generator's end state does not speak of the hidden state, nor does the pseudocode of MASK_HEADER. -/
theorem idleHiddenStateIsDead : Obligations.IdleHiddenStateIsDead := by
  intro s e i busy slack answered
  have room : 2 ≤ s.slack.count := by rw [slack]; decide
  cases i with
  | genBlock => exact (genBlockCompletes { s with eng := e } busy room).trans (genBlockCompletes s busy room).symm
  | genBlockFixed => exact (genBlockFixedCompletes { s with eng := e } busy room).trans (genBlockFixedCompletes s busy room).symm
  | maskHeader =>
    exact (exec_maskHeader_eq_big (s := { s with eng := e }) busy answered slack s.latched_maskLatches.noKs).trans
      (exec_maskHeader_eq_big busy answered slack s.latched_maskLatches.noKs).symm

end Sys2Proof.Machine
